-- ==== Sys2Proof/Syntax.lean ====
section
/-! DEFINITION. The seven commands of the core, one constructor per row of spec/opcode_table.json
(30_encoding.md R71). No command carries an operand in its word (R74). -/

namespace Sys2Proof

/-- The commands of R71. -/
inductive Instr where
  /-- KEXP, `expand` (R116) -/
  | kexp
  /-- ENCB, `encryptBlock` (R147) -/
  | encb
  /-- DECB, `decryptBlock` (R148) -/
  | decb
  /-- ECBE, `ecbEncrypt` (R164) -/
  | ecbe
  /-- ECBD, `ecbDecrypt` (R165) -/
  | ecbd
  /-- CFBE, `cfbEncrypt` (R184) -/
  | cfbe
  /-- CFBD, `cfbDecrypt` (R185) -/
  | cfbd
  deriving DecidableEq, Repr

/-- All seven commands, in opcode order. -/
def Instr.all : List Instr := [.kexp, .encb, .decb, .ecbe, .ecbd, .cfbe, .cfbd]

end Sys2Proof
end

