-- ==== Sys2Proof/Word.lean ====
section
/-! DEFINITION. Bytes, words, blocks and the key schedule as types, and their exclusive-or
(00_scope.md R9 to R12). -/

namespace Sys2Proof

/-- A byte, bit 7 the most significant (R9). -/
abbrev Byte := BitVec 8

/-- A word: exactly 4 bytes `[a0, a1, a2, a3]`, never treated as a number (R11). -/
abbrev Word := Vector Byte 4

/-- A block: exactly 16 bytes (R12, R16). -/
abbrev Block := Vector Byte 16

/-- A key schedule: the 44 words `W[0..43]`, 176 bytes (R7, R23). -/
abbrev Schedule := Vector Word 44

/-- Byte-by-byte exclusive-or of two words (R10, R114). -/
def xorWord (a b : Word) : Word := Vector.zipWith (· ^^^ ·) a b

/-- Byte-by-byte exclusive-or of two blocks (R10, R129). -/
def xorBlock (a b : Block) : Block := Vector.zipWith (· ^^^ ·) a b

/-- Byte-by-byte exclusive-or of two sequences, as long as the shorter one: `s ^ t[0 .. len(s))`
when `t` is the longer (R10, R181). -/
def xorBytes (s t : List Byte) : List Byte := List.zipWith (· ^^^ ·) s t

end Sys2Proof
end

