-- ==== Sys2Proof/Interface.lean ====
section
/-! DEFINITION. What crosses the core's interface: the seven address spaces, what the host can do,
the lines of a host script, and the six error kinds. -/

namespace Sys2Proof

/-- The seven address spaces of 20_memory.md R50. -/
inductive Space where
  | reg | keybuf | ivbuf | ivout | rk | din | dout
  deriving DecidableEq, Repr, Inhabited

/-- What the host (or the platform) does to the core between two steps: the accesses of R55 and R56,
one byte each (R57), and the reset of R230. -/
inductive HostAction where
  /-- `HostWrite(space, off, v)` (R56) -/
  | write (sp : Space) (off : Nat) (v : Byte)
  /-- `HostRead(space, off)` (R55) -/
  | read (sp : Space) (off : Nat)
  /-- an access to a space that is none of the seven of R50 (R51) -/
  | elsewhere
  /-- `RESET`, not a bus access (R76, R230) -/
  | reset
  deriving DecidableEq, Repr

/-- The lines of a host script (30_encoding.md R76, R77). -/
inductive HostLine where
  /-- one host action: `WR`, `RD` or `RESET` (R76) -/
  | action (a : HostAction)
  /-- a command's mnemonic -/
  | command (i : Instr)
  | ldkey (hex : List Byte)
  | ldiv (hex : List Byte)
  | noiv
  | setlen (n : Nat)
  | lddin (hex : List Byte)
  | rdstat
  | rdlen
  | rdout
  | rdivout
  | rdrk (rnd : Fin 11)
  deriving DecidableEq, Repr

/-- The six error kinds of 60_exceptions.md R200; there is no other. -/
inductive ErrorKind where
  | invalidKeyLength
  | invalidIVLength
  | invalidBlockLength
  | invalidCiphertextLength
  | invalidPadding
  | missingIV
  deriving DecidableEq, Repr

end Sys2Proof
end

