-- ==== Sys2Proof/Machine/Matrix.lean ====
section
/-! DEFINITION. Byte sequences written in hex (00_scope.md R10), the column-major matrix view of a
block (R12, R54) and the cutting of a sequence into blocks. -/

namespace Sys2Proof.Machine

/-- The `n` bytes of a sequence written in hex, byte 0 leftmost (R10): `hexBytes 2 0x0011` is
`[0x00, 0x11]`. -/
def hexBytes (n x : Nat) : List Byte :=
  (List.range n).map fun i => BitVec.ofNat 8 (x >>> (8 * (n - 1 - i)))

/-- A word written in hex, byte 0 leftmost (R11). -/
def hexWord (x : Nat) : Word := Vector.ofFn fun i => BitVec.ofNat 8 (x >>> (8 * (3 - i.val)))

/-- A block written in hex, byte 0 leftmost (R10). -/
def hexBlock (x : Nat) : Block := Vector.ofFn fun i => BitVec.ofNat 8 (x >>> (8 * (15 - i.val)))

/-- The matrix view of a block: `s[r][c] = b[r + 4*c]` (R12). -/
def cell (b : Block) (r c : Fin 4) : Byte := b[r.val + 4 * c.val]

/-- The block view of a matrix: `b[i] = s[i mod 4][i div 4]` (R12). -/
def ofMatrix (s : Fin 4 → Fin 4 → Byte) : Block :=
  Vector.ofFn fun i => s ⟨i.val % 4, by omega⟩ ⟨i.val / 4, by omega⟩

/-- Column `c` of the matrix, the word `b[4c .. 4c+4)` (R12); word `c` of a key (R110). -/
def column (b : Block) (c : Fin 4) : Word := Vector.ofFn fun r => cell b r c

/-- The block at index `j` of a byte sequence, bytes `16j .. 16j+15` (R54). Used only where the
sequence has these bytes; the default of a missing byte is never reached by a command. -/
def blockAt (q : List Byte) (j : Nat) : Block := Vector.ofFn fun i => q.getD (16 * j + i.val) 0

/-- A 16-byte sequence as a block. -/
def toBlock (s : List Byte) (h : s.length = 16) : Block := ⟨s.toArray, by simpa using h⟩

end Sys2Proof.Machine
end

