-- ==== Sys2Proof/Machine/GaloisField.lean ====
section
/-! DEFINITION. GF(2^8) arithmetic and the S-box (40_gf_sbox.md). -/

namespace Sys2Proof.Machine

/-- `XTIME(a)`: multiplication by `x` (R91). -/
def xtime (a : Byte) : Byte := if a.getLsbD 7 then (a <<< 1) ^^^ 0x1B else a <<< 1

/-- `GMUL(a, b)` over the bits of `b` from bit `i` on, with `t = XTIME^i(a)` and `n` bits to go (R92). -/
def gmulFrom (b : Byte) : (n i : Nat) → (p t : Byte) → Byte
  | 0, _, p, _ => p
  | n + 1, i, p, t => gmulFrom b n (i + 1) (if b.getLsbD i then p ^^^ t else p) (xtime t)

/-- `GMUL(a, b)`: the product of two field elements (R92). -/
def gmul (a b : Byte) : Byte := gmulFrom b 8 0 0 a

/-- `GINV(a)`: `0` for `0`, otherwise the byte `y` with `GMUL(a, y) = 1` (R93). -/
def ginv (a : Byte) : Byte :=
  if a = 0 then 0
  else (((List.range 256).map (BitVec.ofNat 8)).find? fun y => gmul a y == 1).getD 0

/-- `AFFINE(x)`: the affine transform of the S-box in its rotation form (R94). -/
def affine (x : Byte) : Byte :=
  x ^^^ x.rotateLeft 1 ^^^ x.rotateLeft 2 ^^^ x.rotateLeft 3 ^^^ x.rotateLeft 4 ^^^ 0x63

/-- Row `h` of the table of R95, its sixteen entries leftmost first. -/
def sboxRow : Nat → Nat
  | 0 => 0x637c777bf26b6fc53001672bfed7ab76
  | 1 => 0xca82c97dfa5947f0add4a2af9ca472c0
  | 2 => 0xb7fd9326363ff7cc34a5e5f171d83115
  | 3 => 0x04c723c31896059a071280e2eb27b275
  | 4 => 0x09832c1a1b6e5aa0523bd6b329e32f84
  | 5 => 0x53d100ed20fcb15b6acbbe394a4c58cf
  | 6 => 0xd0efaafb434d338545f9027f503c9fa8
  | 7 => 0x51a3408f929d38f5bcb6da2110fff3d2
  | 8 => 0xcd0c13ec5f974417c4a77e3d645d1973
  | 9 => 0x60814fdc222a908846eeb814de5e0bdb
  | 10 => 0xe0323a0a4906245cc2d3ac629195e479
  | 11 => 0xe7c8376d8dd54ea96c56f4ea657aae08
  | 12 => 0xba78252e1ca6b4c6e8dd741f4bbd8b8a
  | 13 => 0x703eb5664803f60e613557b986c11d9e
  | 14 => 0xe1f8981169d98e949b1e87e9ce5528df
  | _ => 0x8ca1890dbfe6426841992d0fb054bb16

/-- Row `h` of the table of R96, its sixteen entries leftmost first. -/
def invSboxRow : Nat → Nat
  | 0 => 0x52096ad53036a538bf40a39e81f3d7fb
  | 1 => 0x7ce339829b2fff87348e4344c4dee9cb
  | 2 => 0x547b9432a6c2233dee4c950b42fac34e
  | 3 => 0x082ea16628d924b2765ba2496d8bd125
  | 4 => 0x72f8f66486689816d4a45ccc5d65b692
  | 5 => 0x6c704850fdedb9da5e154657a78d9d84
  | 6 => 0x90d8ab008cbcd30af7e45805b8b34506
  | 7 => 0xd02c1e8fca3f0f02c1afbd0301138a6b
  | 8 => 0x3a9111414f67dcea97f2cfcef0b4e673
  | 9 => 0x96ac7422e7ad3585e2f937e81c75df6e
  | 10 => 0x47f11a711d29c5896fb7620eaa18be1b
  | 11 => 0xfc563e4bc6d279209adbc0fe78cd5af4
  | 12 => 0x1fdda8338807c731b11210592780ec5f
  | 13 => 0x60517fa919b54a0d2de57a9f93c99cef
  | 14 => 0xa0e03b4dae2af5b0c8ebbb3c83539961
  | _ => 0x172b047eba77d626e169146355210c7d

/-- Entry `a` of a table of sixteen rows: row the high hex digit of `a`, column the low one (R95). -/
def tableEntry (row : Nat → Nat) (a : Byte) : Byte :=
  BitVec.ofNat 8 (row (a.toNat / 16) >>> (8 * (15 - a.toNat % 16)))

/-- `SBOX(a)`: the forward substitution, as the precomputed table of R95 (R97). -/
def sbox (a : Byte) : Byte := tableEntry sboxRow a

/-- `INVSBOX(b)`: the inverse substitution, as the precomputed table of R96 (R97). -/
def invSbox (b : Byte) : Byte := tableEntry invSboxRow b

end Sys2Proof.Machine
end

