-- ==== Sys2Proof/Machine/KeySchedule.lean ====
section
/-! DEFINITION. Key expansion (41_key_schedule.md R110 to R115). -/

namespace Sys2Proof.Machine

/-- `ROTWORD`: rotate left by one byte (R111). -/
def rotWord (w : Word) : Word := #v[w[1], w[2], w[3], w[0]]

/-- `SUBWORD`: the S-box on each byte (R112). -/
def subWord (w : Word) : Word := w.map sbox

/-- `rc_j` for `j = 1..10`: `0x01` doubled `j - 1` times (R113). R113 does not define `RCON` for `j = 0`
or `j > 10`: there the model's 0 and its continued doubling (`rcByte 11 = 0x6c`) are a DESIGN CHOICE, and
no expansion asks for them (log entry 16). -/
def rcByte : Nat → Byte
  | 0 => 0
  | 1 => 0x01
  | j + 2 => xtime (rcByte (j + 1))

/-- `RCON(j) = [rc_j, 0, 0, 0]` (R113). -/
def rcon (j : Nat) : Word := #v[rcByte j, 0, 0, 0]

/-- The `t` of R114's loop at word index `i`, from `W[i-1]`. -/
def keyMix (i : Nat) (w : Word) : Word :=
  if i % 4 = 0 then xorWord (subWord (rotWord w)) (rcon (i / 4)) else w

/-- Word `W[i]` of the expansion of `k`: the key's own words first (R110), then
`W[i] = W[i-4] ^ t` (R114). -/
def keyWord (k : Block) : Nat → Word
  | 0 => column k 0
  | 1 => column k 1
  | 2 => column k 2
  | 3 => column k 3
  | i + 4 => xorWord (keyWord k i) (keyMix (i + 4) (keyWord k (i + 3)))

/-- The schedule `W[0..43]` of a 16-byte key (R114). -/
def expandBlock (k : Block) : Schedule := Vector.ofFn fun i => keyWord k i.val

/-- `ExpandKey(k)` on any byte sequence (R114). -/
def expandKey (k : List Byte) : Except ErrorKind Schedule :=
  if h : k.length = 16 then .ok (expandBlock (toBlock k h)) else .error .invalidKeyLength

/-- `RoundKey(W, rnd)`: words `4*rnd .. 4*rnd+3` laid end to end (R115); word `4*rnd + c` is column
`c`. -/
def roundKey (w : Schedule) (rnd : Fin 11) : Block :=
  ofMatrix fun r c => (w[4 * rnd.val + c.val])[r]

/-- Byte `off` of the round-key store: `RK[4i+k]` is byte `k` of `W[i]` (R23, R50). -/
def rkByte (w : Schedule) (off : Fin 176) : Byte := (w[off.val / 4])[off.val % 4]

end Sys2Proof.Machine
end

