-- ==== Sys2Proof/Machine/RoundTransforms.lean ====
section
/-! DEFINITION. The round stages and their inverses (42_round_transforms.md). -/

namespace Sys2Proof.Machine

/-- `SubBytes` (R126). -/
def subBytes (b : Block) : Block := b.map sbox

/-- `InvSubBytes` (R130). -/
def invSubBytes (b : Block) : Block := b.map invSbox

/-- `ShiftRows`: `s'[r][c] = s[r][(c + r) mod 4]` (R127); `+` of `Fin 4` is modulo 4. -/
def shiftRows (b : Block) : Block := ofMatrix fun r c => cell b r (c + r)

/-- `InvShiftRows`: `s'[r][c] = s[r][(c - r) mod 4]` (R131); `-` of `Fin 4` is modulo 4. -/
def invShiftRows (b : Block) : Block := ofMatrix fun r c => cell b r (c - r)

/-- The fixed matrix `M` times one column (R128). -/
def mixColumn (a : Word) : Word :=
  #v[gmul 0x02 a[0] ^^^ gmul 0x03 a[1] ^^^ a[2] ^^^ a[3],
     a[0] ^^^ gmul 0x02 a[1] ^^^ gmul 0x03 a[2] ^^^ a[3],
     a[0] ^^^ a[1] ^^^ gmul 0x02 a[2] ^^^ gmul 0x03 a[3],
     gmul 0x03 a[0] ^^^ a[1] ^^^ a[2] ^^^ gmul 0x02 a[3]]

/-- The inverse matrix `M'` times one column (R132). -/
def invMixColumn (a : Word) : Word :=
  #v[gmul 0x0e a[0] ^^^ gmul 0x0b a[1] ^^^ gmul 0x0d a[2] ^^^ gmul 0x09 a[3],
     gmul 0x09 a[0] ^^^ gmul 0x0e a[1] ^^^ gmul 0x0b a[2] ^^^ gmul 0x0d a[3],
     gmul 0x0d a[0] ^^^ gmul 0x09 a[1] ^^^ gmul 0x0e a[2] ^^^ gmul 0x0b a[3],
     gmul 0x0b a[0] ^^^ gmul 0x0d a[1] ^^^ gmul 0x09 a[2] ^^^ gmul 0x0e a[3]]

/-- `MixColumns`: every column by `M` (R128). -/
def mixColumns (b : Block) : Block := ofMatrix fun r c => (mixColumn (column b c))[r]

/-- `InvMixColumns`: every column by `M'` (R132). -/
def invMixColumns (b : Block) : Block := ofMatrix fun r c => (invMixColumn (column b c))[r]

/-- `AddRoundKey`, its own inverse (R129, R133). -/
def addRoundKey (b k : Block) : Block := xorBlock b k

end Sys2Proof.Machine
end

