-- ==== Sys2Proof/Machine/BlockCipher.lean ====
section
/-! DEFINITION. The block cipher (43_block_cipher.md R145, R146). -/

namespace Sys2Proof.Machine

/-- One of the rounds 1 to 9 of encryption (R145 step 2). -/
def encRound (w : Schedule) (st : Block) (rnd : Fin 11) : Block :=
  addRoundKey (mixColumns (shiftRows (subBytes st))) (roundKey w rnd)

/-- Undoing one of the rounds 9 to 1 (R146). -/
def decRound (w : Schedule) (st : Block) (rnd : Fin 11) : Block :=
  invSubBytes (invShiftRows (invMixColumns (addRoundKey st (roundKey w rnd))))

/-- The rounds between the first and the last key-add, in order. -/
def middleRounds : List (Fin 11) := [1, 2, 3, 4, 5, 6, 7, 8, 9]

/-- `EncryptBlock` on a 16-byte block (R145). -/
def encrypt (w : Schedule) (p : Block) : Block :=
  let st := middleRounds.foldl (encRound w) (addRoundKey p (roundKey w 0))
  addRoundKey (shiftRows (subBytes st)) (roundKey w 10)

/-- `DecryptBlock` on a 16-byte block (R146). -/
def decrypt (w : Schedule) (q : Block) : Block :=
  let st := invSubBytes (invShiftRows (addRoundKey q (roundKey w 10)))
  addRoundKey (middleRounds.reverse.foldl (decRound w) st) (roundKey w 0)

/-- `EncryptBlock(p, W)` on any byte sequence (R145). -/
def encryptBlock (p : List Byte) (w : Schedule) : Except ErrorKind Block :=
  if h : p.length = 16 then .ok (encrypt w (toBlock p h)) else .error .invalidBlockLength

/-- `DecryptBlock(q, W)` on any byte sequence (R146). -/
def decryptBlock (q : List Byte) (w : Schedule) : Except ErrorKind Block :=
  if h : q.length = 16 then .ok (decrypt w (toBlock q h)) else .error .invalidBlockLength

end Sys2Proof.Machine
end

