-- ==== Sys2Proof/Config.lean ====
section
/-! DEFINITION. What an instance of the core fixes (the parameters of 00_scope.md R8) and the free
values: constants without a body, so that nothing can be proved of the value they take. -/

namespace Sys2Proof

/-- Parameter `ERR_ORDER` (R8, R207). -/
inductive ErrOrder where
  | fixed | any
  deriving DecidableEq, Repr

/-- The parameters of R8 that a rule depends on. -/
structure Params where
  /-- `DIN_CAP`, the capacity of `DIN` in bytes -/
  dinCap : Nat
  /-- `HOST_COMPONENT_CMDS`: may the host issue KEXP, ENCB, DECB (R72) -/
  hostComponentCmds : Bool
  /-- `ERR_ORDER` (R207) -/
  errOrder : ErrOrder
  deriving DecidableEq, Repr

/-- `DOUT_CAP = DIN_CAP + 16` (R8). -/
def Params.doutCap (p : Params) : Nat := p.dinCap + 16

/-- The number of offsets of each space (R50). -/
def Space.size (p : Params) : Space → Nat
  | .reg => 16
  | .keybuf => 16
  | .ivbuf => 16
  | .ivout => 16
  | .rk => 176
  | .din => p.dinCap
  | .dout => p.doutCap

/-- The working registers of a running command (10_state.md R20, R21, R22, R24). -/
structure Work where
  /-- `ST`, the block being transformed (R21) -/
  st : Block
  /-- `FB`, the CFB feedback register (R22) -/
  fb : Block
  /-- `KSB`, the keystream block (R22) -/
  ksb : Block
  /-- `RND`, the round counter, 0 to 10 (R24) -/
  rnd : Fin 11
  /-- `BLK`, the block or segment counter (R24) -/
  blk : Nat
  deriving DecidableEq, Repr, Inhabited

namespace Config

/-- Free: chooses `DIN_CAP` within R8's bounds (`Config.dinCap`). -/
opaque dinCapChoice : BitVec 32

/-- `DIN_CAP` of the instance that `State.reset` describes: open in R8, any value from 16 to
`2^32 - 17`. -/
def dinCap : Nat := dinCapChoice.toNat % 4294967264 + 16

/-- The parameters of that instance: `DIN_CAP` open, the two others at R8's defaults. -/
def platform : Params where
  dinCap := dinCap
  hostComponentCmds := true
  errOrder := .fixed

/-- Parameter `SPACE_BASE` (R8, R50): where the platform puts each space on its bus. Open, and no
rule of the core depends on it. -/
opaque spaceBase : Space → Nat

/-- Free: the byte of storage at an offset of a space after the reset with a given index (R45, U1). -/
opaque resetByte : Nat → Space → Nat → Byte

/-- Free: what a host read with a given index sees where the spec says "any value" (R55, U2, U3). -/
opaque anyByte : Nat → Byte

/-- Free: the 16 bytes of a draw from the random source (R212, U11). -/
opaque draw16 : Nat → Block

/-- Free: the working registers after a command or a reset (R40, U9). -/
opaque unspecifiedWork : Nat → Work

/-- Free: `FB` after a short last segment with the given ciphertext bytes (R187, U7). -/
opaque shortFeedback : List Byte → Block

/-- Free: which failing check is reported under `ERR_ORDER = any` (R207, U10). -/
opaque errorPick : Nat → Nat

/-- The contents of a 16-byte buffer after a reset: free (R45). -/
def resetBlock (idx : Nat) (sp : Space) : Block := Vector.ofFn fun i => resetByte idx sp i

/-- The contents of `RK` after a reset: free (R45). -/
def resetSchedule (idx : Nat) : Schedule :=
  Vector.ofFn fun w => Vector.ofFn fun k => resetByte idx .rk (4 * w.val + k.val)

/-- The bus address of an address `(space, off)` on the platform's bus (R50). No rule uses it. -/
def busAddress (sp : Space) (off : Nat) : Nat := spaceBase sp + off

end Config
end Sys2Proof
end

