-- ==== Sys2Proof/Machine/State.lean ====
section
/-! DEFINITION. The state of the machine as plain data (10_state.md R20), how it can stop, and the
state after reset (R45). -/

namespace Sys2Proof.Machine

/-- Faults. There is none: the core has no way to stop, and its six error kinds are next states with
a code in `ERRCODE` (60_exceptions.md R200, R208; spec/93_implementation_defined.md Part 1). -/
inductive Fault where
  deriving DecidableEq, Repr

/-- Situations the spec gives no meaning and tells a model to refuse. Every one is SAFE: the model
stops where a device would do something, so nothing can be proved of what follows. -/
inductive Refusal where
  /-- raised by `exec` for an instruction without a meaning; safe; no arm raises it now -/
  | notModelled (mnemonic : String)
  /-- raised by `fetch` when the byte written to `CMD` is no command the host may issue (R72, R73,
  U4); safe -/
  | reservedOpcode (op : Byte)
  /-- raised by ENCB and DECB when `KS_VALID = 0` (R147, R148, U6); safe -/
  | noSchedule
  /-- raised by ECBE, ECBD, CFBE, CFBD when `DIN_LEN > DIN_CAP` (R38, U5); safe -/
  | dataLongerThanBuffer
  /-- raised by a host access at an offset its space does not have (R51, U8); safe -/
  | offsetOutsideSpace (sp : Space) (off : Nat)
  /-- raised by a host access to a space that is none of the seven (R51, U8); safe -/
  | unknownSpace
  deriving DecidableEq, Repr

/-- The bytes of a sparse space written since reset, as (offset, byte) pairs. `Memory.wf` is its
canonical form. An unlisted offset has not been written: it holds no byte of the list's. -/
abbrev Memory := List Host.Cell

/-- The canonical form: offsets strictly rising (so none twice). An unlisted offset reads as `none`
(`Memory.read`), which no entry can equal. -/
abbrev Memory.wf (m : Memory) : Prop := m.Pairwise fun a b => a.1 < b.1

/-- The complete state (R20), and the model's own fields after it. -/
structure State where
  /-- `KEYBUF`, the key operand (R41) -/
  keybuf : Block
  /-- `KEY_LEN` (R36) -/
  keyLen : Byte
  /-- `IVBUF`, the IV operand (R42) -/
  ivbuf : Block
  /-- `IV_LEN` (R37) -/
  ivLen : Byte
  /-- `IV_PRESENT`, bit 0 of `IVCTL` (R35) -/
  ivPresent : Bool
  /-- `DIN`, the data operand: the bytes written since reset (R44) -/
  din : Memory
  /-- `DIN_LEN` (R38) -/
  dinLen : BitVec 32
  /-- `DOUT`, the result: the byte sequence of length `DOUT_LEN` (R39, R44) -/
  dout : List Byte
  /-- `DOUT_LEN` (R39) -/
  doutLen : BitVec 32
  /-- `IVOUT`, the IV the last successful CFBE used (R43) -/
  ivout : Block
  /-- `RK`, the round-key store `W[0..43]` (R23) -/
  rk : Schedule
  /-- `KS_VALID` (R23) -/
  ksValid : Bool
  /-- `ERRCODE` (R33) -/
  errcode : Byte
  /-- `DONE` (R32) -/
  done : Bool
  /-- `ST`, `FB`, `KSB`, `RND`, `BLK`: unspecified between commands (R40) -/
  work : Work
  /-- MODEL'S OWN: the parameters of this instance (R8) -/
  params : Params
  /-- MODEL'S OWN: what the host does next, first action first (R61) -/
  script : List HostAction
  /-- MODEL'S OWN: the bytes host reads returned, oldest first (R55) -/
  answers : List Byte
  /-- MODEL'S OWN: how many draws the random source has answered (R212) -/
  draws : Nat
  /-- MODEL'S OWN: the index of the next free value -/
  free : Nat
  /-- MODEL'S OWN: the index under which the last reset drew the contents of storage (R45) -/
  resetIdx : Nat
  deriving DecidableEq, Repr

/-- The machine right after reset (R45): the eight control fields 0, storage and working registers
free, no host action pending. -/
def State.reset : State where
  keybuf := Config.resetBlock 0 .keybuf
  keyLen := 0
  ivbuf := Config.resetBlock 0 .ivbuf
  ivLen := 0
  ivPresent := false
  din := []
  dinLen := 0
  dout := []
  doutLen := 0
  ivout := Config.resetBlock 0 .ivout
  rk := Config.resetSchedule 0
  ksValid := false
  errcode := 0
  done := false
  work := Config.unspecifiedWork 0
  params := Config.platform
  script := []
  answers := []
  draws := 0
  free := 1
  resetIdx := 0

end Sys2Proof.Machine
end

