-- ==== Sys2Proof/Machine/Flags.lean ====
section
/-! DEFINITION. The error codes and the status register: every flag the core has (10_state.md R25, R31
to R33, 60_exceptions.md R200). No command sets a flag as a side effect of arithmetic (R25). -/

namespace Sys2Proof.Machine

/-- The code of an error kind (R200). -/
def errorCode : ErrorKind → Byte
  | .invalidKeyLength => 0x01
  | .invalidIVLength => 0x02
  | .invalidBlockLength => 0x03
  | .invalidCiphertextLength => 0x04
  | .invalidPadding => 0x05
  | .missingIV => 0x06

/-- `zext_8` of a bit (R13). -/
def zextBit (b : Bool) : Byte := if b then 1 else 0

/-- `ERR`: `ERRCODE` is not 0 (R31). -/
def State.err (s : State) : Bool := s.errcode != 0

/-- What `HostRead(REG, 1)` returns: `DONE | ERR << 1 | KS_VALID << 2`, bits 7:3 zero (R31). -/
def State.status (s : State) : Byte :=
  zextBit s.done ||| zextBit s.err <<< 1 ||| zextBit s.ksValid <<< 2

/-- What `HostRead(REG, 3)` returns (R35). -/
def State.ivctl (s : State) : Byte := zextBit s.ivPresent

/-- The length conditions that fail, one list per check of R207's table: empty when the check passes. -/
def State.keyErrors (s : State) : List ErrorKind :=
  if s.keyLen = 16 then [] else [.invalidKeyLength]

/-- InvalidBlockLength: `DIN_LEN != 16` (R203). -/
def State.blockErrors (s : State) : List ErrorKind :=
  if s.dinLen = 16 then [] else [.invalidBlockLength]

/-- InvalidCiphertextLength: `DIN_LEN = 0` or `DIN_LEN mod 16 != 0` (R204). -/
def State.ciphertextErrors (s : State) : List ErrorKind :=
  if s.dinLen.toNat = 0 ∨ s.dinLen.toNat % 16 ≠ 0 then [.invalidCiphertextLength] else []

/-- InvalidIVLength: an IV is supplied and `IV_LEN != 16` (R202). -/
def State.ivLengthErrors (s : State) : List ErrorKind :=
  if s.ivPresent ∧ s.ivLen ≠ 16 then [.invalidIVLength] else []

/-- MissingIV: no IV is supplied (R206). -/
def State.missingIvErrors (s : State) : List ErrorKind :=
  if s.ivPresent then [] else [.missingIV]

/-- The failing length checks of a command, in the order of R207's table. -/
def State.failingChecks (s : State) : Instr → List ErrorKind
  | .kexp => s.keyErrors
  | .encb => s.blockErrors
  | .decb => s.blockErrors
  | .ecbe => s.keyErrors
  | .ecbd => s.keyErrors ++ s.ciphertextErrors
  | .cfbe => s.keyErrors ++ s.ivLengthErrors
  | .cfbd => s.keyErrors ++ s.missingIvErrors ++ s.ivLengthErrors

/-- The one error reported when some checks fail (R207): the first under `ERR_ORDER = fixed`, any of
them under `any` (U10). -/
def pickError (order : ErrOrder) (pick : Nat) : List ErrorKind → Option ErrorKind
  | [] => none
  | e :: rest =>
    match order with
    | .fixed => some e
    | .any => some ((e :: rest).getD (pick % (rest.length + 1)) e)

/-- The length error a command ends with, if any (R207). Under `any` the pick is fresh for every command
(DESIGN CHOICE, log entry 7): the same command issued again may report another failing check, where R209
has it raise the same error and U10 allows any of the codes. -/
def State.lengthError (s : State) (i : Instr) : Option ErrorKind :=
  pickError s.params.errOrder (Config.errorPick s.free) (s.failingChecks i)

end Sys2Proof.Machine
end

