-- ==== Sys2Proof/Machine/Operands.lean ====
section
/-! DEFINITION. Where commands and the host find operands and results: the sparse buffer `DIN`, the
storage byte at an address, `MemRead` (20_memory.md R58), and the bytes of the length registers
(10_state.md R38, R39). -/

namespace Sys2Proof.Machine

/-- The byte written at an offset since reset, `none` where nothing was written. -/
def Memory.read (m : Memory) (off : Nat) : Option Byte := (m.find? fun e => e.1 == off).map (·.2)

/-- Write one byte; the canonical form is kept. -/
def Memory.write : Memory → Nat → Byte → Memory
  | [], off, v => [(off, v)]
  | (a, w) :: rest, off, v =>
    if off < a then (off, v) :: (a, w) :: rest
    else if off = a then (off, v) :: rest
    else (a, w) :: Memory.write rest off v

/-- What an unlisted offset of `DIN` reads as: the unspecified byte the last reset left there (R45,
U1). -/
def State.dinUnwritten (s : State) (off : Nat) : Byte := Config.resetByte s.resetIdx .din off

/-- Byte `off` of `DIN` (R44). -/
def State.dinByte (s : State) (off : Nat) : Byte := (s.din.read off).getD (s.dinUnwritten off)

/-- Is byte `off` of `DOUT` part of the result (R39)? -/
def State.doutHolds (s : State) (off : Nat) : Bool := decide (off < s.doutLen.toNat) && decide (off < s.dout.length)

/-- A byte of length register `x`: byte `k` is bits `8k+7 : 8k` (R38, R39). -/
def lenByte (x : BitVec 32) (k : Nat) : Byte := (x >>> (8 * k)).setWidth 8

/-- Set byte `k` of a length register and leave the other three (R38). -/
def setLenByte (x : BitVec 32) (k : Nat) (v : Byte) : BitVec 32 :=
  (x &&& ~~~((0xFF : BitVec 32) <<< (8 * k))) ||| (v.setWidth 32 <<< (8 * k))

/-- The byte a command's `MemRead` sees at `(space, off)` of a buffer (R58). `DOUT` and `REG` are read
by no command. -/
def State.bufferByte (s : State) (sp : Space) (off : Nat) : Byte :=
  match sp with
  | .reg => 0
  | .keybuf => s.keybuf.toList.getD off 0
  | .ivbuf => s.ivbuf.toList.getD off 0
  | .ivout => s.ivout.toList.getD off 0
  | .rk => if h : off < 176 then rkByte s.rk ⟨off, h⟩ else 0
  | .din => s.dinByte off
  | .dout => s.dout.getD off 0

/-- `MemRead((space, off), n)`: `n` bytes from `off`, the byte at `off` first (R13, R58). -/
def State.memRead (s : State) (sp : Space) (off n : Nat) : List Byte :=
  (List.range n).map fun i => s.bufferByte sp (off + i)

/-- The key operand of a command that passed its key check: `KEYBUF[0..16)` (R36, R116). -/
def State.keyOperand (s : State) : Block := s.keybuf

/-- The IV operand of a command that passed its IV checks: `IVBUF[0..16)` (R37, R183). -/
def State.ivOperand (s : State) : Block := s.ivbuf

/-- The one-block data operand of ENCB and DECB: `MemRead((DIN, 0), 16)` (R147, R148). -/
def State.blockOperand (s : State) : Block := Vector.ofFn fun i => s.dinByte i.val

/-- The data operand of a mode command: `MemRead((DIN, 0), DIN_LEN)` (R38, R44). -/
def State.dataOperand (s : State) : List Byte := s.memRead .din 0 s.dinLen.toNat

end Sys2Proof.Machine
end

