-- ==== Sys2Proof/Machine/Ops.lean ====
section
/-! DEFINITION. The named operations the commands share: how a command begins and ends, entering an
error, expanding the key, delivering a result, choosing an IV; and the reset. -/

namespace Sys2Proof.Machine

/-- The first action of every command: `ERRCODE <- 0` (R33, R209). -/
def State.beginCommand (s : State) : State := { s with errcode := 0 }

/-- The end of every command, with or without an error: `DONE <- 1` (R32), and the working registers
are unspecified again (R40). -/
def State.endCommand (s : State) : State :=
  { s with done := true, work := Config.unspecifiedWork s.free, free := s.free + 1 }

/-- A data command: one of the six that write `DOUT_LEN` (R39). -/
def isDataCommand : Instr → Bool
  | .kexp => false
  | .encb => true
  | .decb => true
  | .ecbe => true
  | .ecbd => true
  | .cfbe => true
  | .cfbd => true

/-- `MemWrite((DOUT, 0), len(r), r); DOUT_LEN <- len(r)`: the result of a data command (R39, R44). -/
def State.deliver (s : State) (r : List Byte) : State :=
  { s with dout := r, doutLen := BitVec.ofNat 32 r.length }

/-- ERROR ENTRY, what `raise E` does in command `i` (R208): the code, `DOUT_LEN <- 0` in a data
command, `DONE <- 1`, and the command ends. There is no return from an error (R209): the next command
begins with `ERRCODE <- 0`. -/
def State.raiseError (s : State) (i : Instr) (e : ErrorKind) : State :=
  let s₁ := { s with errcode := errorCode e }
  (if isDataCommand i then s₁.deliver [] else s₁).endCommand

/-- `RK <- ExpandKey(KEYBUF[0..16)); KS_VALID <- 1` (R116, R117). -/
def State.loadSchedule (s : State) : State :=
  { s with rk := expandBlock s.keyOperand, ksValid := true }

/-- `SelectIvEncrypt` after the IV checks (R183): the supplied IV, or one draw from the random source
(R212). -/
def State.encryptIv (s : State) : Block :=
  if s.ivPresent then s.ivOperand else Config.draw16 s.draws

/-- The draw that `encryptIv` takes when no IV is supplied, counted (R212). -/
def State.countDraw (s : State) : State :=
  if s.ivPresent then s else { s with draws := s.draws + 1 }

/-- `IVOUT <- iv` (R43, R184). -/
def State.setIvout (s : State) (iv : Block) : State := { s with ivout := iv }

/-- Does the data operand fit the buffer (R38)? -/
def State.dinFits (s : State) : Bool := decide (s.dinLen.toNat ≤ s.params.dinCap)

/-- RESET (R230, R45): the eight control fields become 0, every byte of storage and the working
registers unspecified. The parameters, the host's script and answers and the random source are not
state of the core. -/
def State.applyReset (s : State) : State :=
  { s with
    keybuf := Config.resetBlock s.free .keybuf
    keyLen := 0
    ivbuf := Config.resetBlock s.free .ivbuf
    ivLen := 0
    ivPresent := false
    din := []
    dinLen := 0
    dout := []
    doutLen := 0
    ivout := Config.resetBlock s.free .ivout
    rk := Config.resetSchedule s.free
    ksValid := false
    errcode := 0
    done := false
    work := Config.unspecifiedWork s.free
    free := s.free + 1
    resetIdx := s.free }

end Sys2Proof.Machine
end

