-- ==== Sys2Proof/Machine/BlockCommands.lean ====
section
/-! DEFINITION. ENCB and DECB (43_block_cipher.md R147, R148). -/

namespace Sys2Proof.Machine

/-- What ENCB and DECB share: refused without a schedule (U6), one length check, one block through
`f`, 16 bytes delivered. -/
def blockCommand (i : Instr) (f : Schedule → Block → Block) (s : State) :
    Host.Outcome State Fault Refusal :=
  if s.ksValid then
    let s := s.beginCommand
    match s.lengthError i with
    | some e => .next (s.raiseError i e)
    | none => .next (s.deliver (f s.rk s.blockOperand).toList).endCommand
  else .refused .noSchedule

/-- ENCB: encrypt the one block in `DIN` with the schedule in `RK` (R147). -/
def execEncb (s : State) : Host.Outcome State Fault Refusal := blockCommand .encb encrypt s

/-- DECB: decrypt the one block in `DIN` with the schedule in `RK` (R148). -/
def execDecb (s : State) : Host.Outcome State Fault Refusal := blockCommand .decb decrypt s

end Sys2Proof.Machine
end

