-- ==== Sys2Proof/Machine/KeyCommands.lean ====
section
/-! DEFINITION. KEXP (41_key_schedule.md R116). -/

namespace Sys2Proof.Machine

/-- KEXP: expand the key in `KEYBUF` into `RK` (R116). -/
def execKexp (s : State) : Host.Outcome State Fault Refusal :=
  let s := s.beginCommand
  match s.lengthError .kexp with
  | some e => .next (s.raiseError .kexp e)
  | none => .next s.loadSchedule.endCommand

end Sys2Proof.Machine
end

