-- ==== Sys2Proof/Machine/CfbMode.lean ====
section
/-! DEFINITION. The CFB mode functions (45_cfb_mode.md R180 to R182, R187). -/

namespace Sys2Proof.Machine

/-- `NSEG`, the number of segments of a sequence of length `len` (R180). -/
def segmentCount (len : Nat) : Nat := (len + 15) / 16

/-- Segment `j`: bytes `16j .. min(16j+16, L) - 1` (R180). -/
def segmentAt (x : List Byte) (j : Nat) : List Byte := (x.drop (16 * j)).take 16

/-- The segments in ascending order (R180). -/
def segments (x : List Byte) : List (List Byte) :=
  (List.range (segmentCount x.length)).map (segmentAt x)

/-- `FB` after a segment with ciphertext bytes `cs`: the segment itself when it is whole, otherwise
unspecified (R181, R187). -/
def nextFeedback (cs : List Byte) : Block :=
  if h : cs.length = 16 then toBlock cs h else Config.shortFeedback cs

/-- The segment loop of encryption from feedback register `fb` on (R181). `xorBytes` keeps the first
`len(seg)` bytes of the keystream block. -/
def cfbEncryptSegments (w : Schedule) : Block → List (List Byte) → List Byte
  | _, [] => []
  | fb, seg :: rest =>
    let cs := xorBytes seg (encrypt w fb).toList
    cs ++ cfbEncryptSegments w (nextFeedback cs) rest

/-- The segment loop of decryption: the encryption of the register again, the register fed with the
ciphertext segment (R182). -/
def cfbDecryptSegments (w : Schedule) : Block → List (List Byte) → List Byte
  | _, [] => []
  | fb, seg :: rest =>
    xorBytes seg (encrypt w fb).toList ++ cfbDecryptSegments w (nextFeedback seg) rest

/-- `CfbEncryptLoop(p, W, iv)` (R181). -/
def cfbEncryptLoop (p : List Byte) (w : Schedule) (iv : Block) : List Byte :=
  cfbEncryptSegments w iv (segments p)

/-- `CfbDecryptLoop(c, W, iv)` (R182). -/
def cfbDecryptLoop (c : List Byte) (w : Schedule) (iv : Block) : List Byte :=
  cfbDecryptSegments w iv (segments c)

end Sys2Proof.Machine
end

