-- ==== Sys2Proof/Machine/EcbMode.lean ====
section
/-! DEFINITION. PKCS#7 padding and the ECB mode functions (44_ecb_mode.md R160 to R163). -/

namespace Sys2Proof.Machine

/-- The number of padding bytes of a plaintext of length `len` (R160): 1 to 16. -/
def padCount (len : Nat) : Nat := 16 - len % 16

/-- `Pad(p)` (R160). -/
def pad (p : List Byte) : List Byte :=
  p ++ List.replicate (padCount p.length) (BitVec.ofNat 8 (padCount p.length))

/-- `Unpad(q)` (R161). -/
def unpad (q : List Byte) : Except ErrorKind (List Byte) :=
  let n := (q.getLastD 0).toNat
  if n < 1 ∨ 16 < n then .error .invalidPadding
  else if (q.drop (q.length - n)).all fun b => b.toNat == n then .ok (q.take (q.length - n))
  else .error .invalidPadding

/-- Each 16-byte block of `q` through `f`, in ascending order, results laid end to end (R162, R167). -/
def mapBlocks (f : Block → Block) (q : List Byte) : List Byte :=
  (List.range (q.length / 16)).flatMap fun j => (f (blockAt q j)).toList

/-- The block loop of `EcbEncrypt` with a given schedule (R162). -/
def ecbEncryptWith (w : Schedule) (p : List Byte) : List Byte := mapBlocks (encrypt w) (pad p)

/-- The block loop of `EcbDecrypt` with a given schedule, padding still on (R163). -/
def ecbDecryptWith (w : Schedule) (c : List Byte) : List Byte := mapBlocks (decrypt w) c

/-- `EcbEncrypt(p, k)` (R162). -/
def ecbEncrypt (p k : List Byte) : Except ErrorKind (List Byte) :=
  match expandKey k with
  | .error e => .error e
  | .ok w => .ok (ecbEncryptWith w p)

/-- `EcbDecrypt(c, k)`: key length, then ciphertext length, then padding (R163). -/
def ecbDecrypt (c k : List Byte) : Except ErrorKind (List Byte) :=
  match expandKey k with
  | .error e => .error e
  | .ok w =>
    if c.length = 0 ∨ c.length % 16 ≠ 0 then .error .invalidCiphertextLength
    else unpad (ecbDecryptWith w c)

end Sys2Proof.Machine
end

