-- ==== Sys2Proof/Machine/ModeCommands.lean ====
section
/-! DEFINITION. ECBE, ECBD (44_ecb_mode.md R164, R165), CFBE and CFBD (45_cfb_mode.md R184, R185). -/

namespace Sys2Proof.Machine

/-- What the four mode commands share: refused when the data do not fit (U5), the length checks, the
key expansion (R117), then `work` on the state with the schedule loaded. -/
def modeCommand (i : Instr) (work : State → State) (s : State) : Host.Outcome State Fault Refusal :=
  if s.dinFits then
    let s := s.beginCommand
    match s.lengthError i with
    | some e => .next (s.raiseError i e)
    | none => .next (work s.loadSchedule)
  else .refused .dataLongerThanBuffer

/-- ECBE after its checks: pad, encrypt, deliver (R164). -/
def ecbeWork (s : State) : State := (s.deliver (ecbEncryptWith s.rk s.dataOperand)).endCommand

/-- ECBD after its length checks: decrypt, unpad, deliver or raise InvalidPadding (R165). -/
def ecbdWork (s : State) : State :=
  match unpad (ecbDecryptWith s.rk s.dataOperand) with
  | .ok r => (s.deliver r).endCommand
  | .error e => s.raiseError .ecbd e

/-- CFBE after its checks: select the IV, encrypt, return the IV and the ciphertext (R184). -/
def cfbeWork (s : State) : State :=
  ((s.countDraw.setIvout s.encryptIv).deliver
    (cfbEncryptLoop s.dataOperand s.rk s.encryptIv)).endCommand

/-- CFBD after its checks: decrypt under the supplied IV, deliver (R185). -/
def cfbdWork (s : State) : State :=
  (s.deliver (cfbDecryptLoop s.dataOperand s.rk s.ivOperand)).endCommand

/-- ECBE: ECB-encrypt `DIN[0..DIN_LEN)` under the key in `KEYBUF` (R164). -/
def execEcbe (s : State) : Host.Outcome State Fault Refusal := modeCommand .ecbe ecbeWork s

/-- ECBD: ECB-decrypt `DIN[0..DIN_LEN)` and strip the padding (R165). -/
def execEcbd (s : State) : Host.Outcome State Fault Refusal := modeCommand .ecbd ecbdWork s

/-- CFBE: CFB-encrypt `DIN[0..DIN_LEN)` (R184). -/
def execCfbe (s : State) : Host.Outcome State Fault Refusal := modeCommand .cfbe cfbeWork s

/-- CFBD: CFB-decrypt `DIN[0..DIN_LEN)` (R185). -/
def execCfbd (s : State) : Host.Outcome State Fault Refusal := modeCommand .cfbd cfbdWork s

end Sys2Proof.Machine
end

