-- ==== Sys2Proof/Decode.lean ====
section
/-! DEFINITION. Decoding and encoding the command byte (30_encoding.md R70, R71, R73). -/

namespace Sys2Proof

/-- Why a byte is no command. -/
inductive DecodeError where
  /-- a reserved encoding (R73) -/
  | reserved (op : Byte)
  deriving DecidableEq, Repr

/-- One row of the opcode table: the byte is the command when `op &&& mask = bits`. -/
structure OpRow where
  instr : Instr
  mask : Byte
  bits : Byte
  deriving DecidableEq, Repr

/-- The opcode table (R71, spec/opcode_table.json). A decoder compares all eight bits (R70). -/
def opcodeTable : List OpRow :=
  [⟨.kexp, 0xFF, 0x01⟩, ⟨.encb, 0xFF, 0x02⟩, ⟨.decb, 0xFF, 0x03⟩, ⟨.ecbe, 0xFF, 0x04⟩,
   ⟨.ecbd, 0xFF, 0x05⟩, ⟨.cfbe, 0xFF, 0x06⟩, ⟨.cfbd, 0xFF, 0x07⟩]

/-- Does a row claim a byte? -/
def OpRow.claims (r : OpRow) (op : Byte) : Bool := op &&& r.mask == r.bits

/-- The command a byte written to `CMD` stands for, or the name of why it is none (R70, R73). Whether
the host may issue it is `Instr.wf` (R72). -/
def decode (op : Byte) : Except DecodeError Instr :=
  match opcodeTable.find? (·.claims op) with
  | some r => .ok r.instr
  | none => .error (.reserved op)

/-- The command byte of a command (R71). -/
def encode : Instr → Byte
  | .kexp => 0x01
  | .encb => 0x02
  | .decb => 0x03
  | .ecbe => 0x04
  | .ecbd => 0x05
  | .cfbe => 0x06
  | .cfbd => 0x07

/-- The command byte laid out from a table word: bits above `nbits` are zero, and a command is one
byte long (R70). -/
def tableByte (nbits w : Nat) : Byte := BitVec.ofNat 8 (w % 2 ^ nbits)

/-- The decoder on a word numbered as spec/opcode_table.json numbers it. -/
def decodeTableWord (nbits w : Nat) : Option Instr :=
  match decode (tableByte nbits w) with
  | .ok i => some i
  | .error _ => none

end Sys2Proof
end

