-- ==== Sys2Proof/WellFormed.lean ====
section
/-! DEFINITION. What is well formed: the parameters (R8), a command the host may issue (R72), a host
access inside its space (R51) and a script line (R77). -/

namespace Sys2Proof

/-- R8: `16 <= DIN_CAP <= 2^32 - 17`. -/
def Params.wf (p : Params) : Bool := decide (16 ≤ p.dinCap) && decide (p.dinCap ≤ 4294967279)

/-- The level of a command (R71): `true` for the four host-level commands, `false` for the three
component-level ones. -/
def Instr.hostLevel : Instr → Bool
  | .kexp => false
  | .encb => false
  | .decb => false
  | .ecbe => true
  | .ecbd => true
  | .cfbe => true
  | .cfbd => true

/-- The host may issue the command: all seven with `HOST_COMPONENT_CMDS = true`, the host-level ones
otherwise (R72). A command has no operand that could be ill formed (R74). -/
def Instr.wf (p : Params) (i : Instr) : Bool := p.hostComponentCmds || i.hostLevel

/-- An access is well formed when its offset lies in its space (R50, R51). -/
def HostAction.wf (p : Params) : HostAction → Bool
  | .write sp off _ => decide (off < sp.size p)
  | .read sp off => decide (off < sp.size p)
  | .elsewhere => false
  | .reset => true

/-- The limits R77 puts on its lines: at most 255 bytes in `LDKEY` and `LDIV` and at most `DIN_CAP` in
`LDDIN`; besides, an access inside its space (R51) and a command the host may issue (R72). R77 sets no
limit on the number of `SETLEN`, and the model sets none (log entry 19). -/
def HostLine.wf (p : Params) : HostLine → Bool
  | .action a => a.wf p
  | .command i => i.wf p
  | .ldkey hex => decide (hex.length ≤ 255)
  | .ldiv hex => decide (hex.length ≤ 255)
  | .noiv => true
  | .setlen _ => true
  | .lddin hex => decide (hex.length ≤ p.dinCap)
  | .rdstat => true
  | .rdlen => true
  | .rdout => true
  | .rdivout => true
  | .rdrk _ => true

end Sys2Proof
end

