-- ==== Sys2Proof/Machine/HostBus.lean ====
section
/-! DEFINITION. The host's accesses (20_memory.md R55, R56), the registers of space REG (10_state.md
R26 to R39), and which command, if any, the next host action issues (R30). -/

namespace Sys2Proof.Machine

/-- `HostRead(REG, n)` for `n = 0..15` (R26, R30 to R39). REG 0, 6 and 7 read as 0. -/
def State.regRead (s : State) (n : Nat) : Byte :=
  match n with
  | 1 => s.status
  | 2 => s.errcode
  | 3 => s.ivctl
  | 4 => s.keyLen
  | 5 => s.ivLen
  | 8 => lenByte s.dinLen 0
  | 9 => lenByte s.dinLen 1
  | 10 => lenByte s.dinLen 2
  | 11 => lenByte s.dinLen 3
  | 12 => lenByte s.doutLen 0
  | 13 => lenByte s.doutLen 1
  | 14 => lenByte s.doutLen 2
  | 15 => lenByte s.doutLen 3
  | _ => 0

/-- `HostWrite(REG, n, v)` for a register other than `CMD` (R26, R56): a write to a read-only or
reserved register is ignored. -/
def State.regWrite (s : State) (n : Nat) (v : Byte) : State :=
  match n with
  | 3 => { s with ivPresent := v.getLsbD 0 }
  | 4 => { s with keyLen := v }
  | 5 => { s with ivLen := v }
  | 8 => { s with dinLen := setLenByte s.dinLen 0 v }
  | 9 => { s with dinLen := setLenByte s.dinLen 1 v }
  | 10 => { s with dinLen := setLenByte s.dinLen 2 v }
  | 11 => { s with dinLen := setLenByte s.dinLen 3 v }
  | _ => s

/-- The value a host read sees where the spec says "any value": fresh for every read answered (R55). -/
def State.anyRead (s : State) : Byte := Config.anyByte s.answers.length

/-- The byte the host reads at an offset inside a space (R55): `DOUT` only below `DOUT_LEN` and `RK`
only with `KS_VALID = 1`, any value otherwise (U2, U3). -/
def State.readByte (s : State) (sp : Space) (off : Nat) : Byte :=
  match sp with
  | .reg => s.regRead off
  | .keybuf => s.bufferByte .keybuf off
  | .ivbuf => s.bufferByte .ivbuf off
  | .ivout => s.bufferByte .ivout off
  | .rk => if s.ksValid then s.bufferByte .rk off else s.anyRead
  | .din => s.bufferByte .din off
  | .dout => if s.doutHolds off then s.bufferByte .dout off else s.anyRead

/-- The state after a host write inside a space that issues no command (R56): `IVOUT`, `RK`, `DOUT`
ignore writes. -/
def State.writeByte (s : State) (sp : Space) (off : Nat) (v : Byte) : State :=
  match sp with
  | .reg => s.regWrite off v
  | .keybuf => { s with keybuf := s.keybuf.setIfInBounds off v }
  | .ivbuf => { s with ivbuf := s.ivbuf.setIfInBounds off v }
  | .ivout => s
  | .rk => s
  | .din => { s with din := s.din.write off v }
  | .dout => s

/-- `HostRead(space, off)` (R55): the byte, which the host keeps; no state of the core changes. An
offset outside the space is refused (R51, U8). -/
def hostRead (s : State) (sp : Space) (off : Nat) : Host.Outcome State Fault Refusal :=
  if off < sp.size s.params then .next { s with answers := s.answers ++ [s.readByte sp off] }
  else .refused (.offsetOutsideSpace sp off)

/-- `HostWrite(space, off, v)` to an address other than `CMD` (R56). -/
def hostWrite (s : State) (sp : Space) (off : Nat) (v : Byte) : Host.Outcome State Fault Refusal :=
  if off < sp.size s.params then .next (s.writeByte sp off v)
  else .refused (.offsetOutsideSpace sp off)

/-- The command a byte written to `CMD` issues: none when the byte is reserved, or reserved for this
host by `HOST_COMPONENT_CMDS = false` (R72, R73). -/
def issued (p : Params) (op : Byte) : Option Instr :=
  match decode op with
  | .ok i => if i.wf p then some i else none
  | .error _ => none

/-- What the next host action comes to: a command to run, or the finished outcome of an access. -/
inductive Fetched where
  | command (i : Instr) (s : State)
  | finished (o : Host.Outcome State Fault Refusal)

/-- The write of `op` to `CMD` (R30). `CMD` stores nothing. -/
def issueCommand (s : State) (op : Byte) : Fetched :=
  match issued s.params op with
  | some i => .command i s
  | none => .finished (.refused (.reservedOpcode op))

/-- One host action on the state (R61). -/
def hostAction (s : State) : HostAction → Fetched
  | .write .reg 0 op => issueCommand s op
  | .write sp off v => .finished (hostWrite s sp off v)
  | .read sp off => .finished (hostRead s sp off)
  | .elsewhere => .finished (.refused .unknownSpace)
  | .reset => .finished (.next s.applyReset)

/-- `s` with `rest` as what the host still has to do. -/
def State.withScript (s : State) (rest : List HostAction) : State := { s with script := rest }

/-- Take the next host action. With none pending the core idles: it does nothing of itself (R18). -/
def fetch (s : State) : Fetched :=
  match s.script with
  | [] => .finished (.next s)
  | a :: rest => hostAction (s.withScript rest) a

end Sys2Proof.Machine
end

