-- ==== Sys2Proof/Machine/Step.lean ====
section
/-! DEFINITION. One step: the next host action takes full effect, a command it issues included
(20_memory.md R60, R61). -/

namespace Sys2Proof.Machine

/-- One step of the machine. -/
def step (s : State) : Host.Outcome State Fault Refusal :=
  match fetch s with
  | .command i s' => exec i s'
  | .finished o => o

/-- `s` with the write of a command byte to `CMD` put before everything else the host will do, so that
the next step runs that command (R30). -/
def State.withFetchWord (s : State) (nbits w : Nat) : State :=
  { s with script := .write .reg 0 (tableByte nbits w) :: s.script }

end Sys2Proof.Machine
end

