-- ==== Sys2Proof/Machine/HostScript.lean ====
section
/-! DEFINITION. The lines of a host script as the host actions they expand to (30_encoding.md R76,
R77). -/

namespace Sys2Proof.Machine

/-- `WR <space>[i], bytes[i]` for `i` from 0 in ascending order. -/
def writeBytes (sp : Space) (bytes : List Byte) : List HostAction :=
  bytes.mapIdx fun i v => .write sp i v

/-- `RD <space>[off + i]` for `i = 0 .. n-1`. -/
def readBytes (sp : Space) (off n : Nat) : List HostAction :=
  (List.range n).map fun i => .read sp (off + i)

/-- `SETLEN <n>`, for every `n` (R77): from `2^32` on the four bytes are those of `n mod 2^32`. -/
def setLen (n : Nat) : List HostAction :=
  [.write .reg 8 (BitVec.ofNat 8 (n % 256)), .write .reg 9 (BitVec.ofNat 8 (n / 256 % 256)),
   .write .reg 10 (BitVec.ofNat 8 (n / 65536 % 256)),
   .write .reg 11 (BitVec.ofNat 8 (n / 16777216 % 256))]

/-- The host actions of a script line (R77). `RDOUT` reads as many bytes as `DOUT_LEN` says when the
line is reached, so the expansion looks at the state. -/
def expandLine (s : State) : HostLine → List HostAction
  | .action a => [a]
  | .command i => [.write .reg 0 (encode i)]
  | .ldkey hex => writeBytes .keybuf (hex.take 16) ++ [.write .reg 4 (BitVec.ofNat 8 hex.length)]
  | .ldiv hex =>
    writeBytes .ivbuf (hex.take 16) ++
      [.write .reg 5 (BitVec.ofNat 8 hex.length), .write .reg 3 0x01]
  | .noiv => [.write .reg 3 0x00]
  | .setlen n => setLen n
  | .lddin hex => writeBytes .din hex ++ setLen hex.length
  | .rdstat => readBytes .reg 1 2
  | .rdlen => readBytes .reg 12 4
  | .rdout => readBytes .reg 12 4 ++ readBytes .dout 0 s.doutLen.toNat
  | .rdivout => readBytes .ivout 0 16
  | .rdrk rnd => readBytes .rk (16 * rnd.val) 16

end Sys2Proof.Machine
end

