-- ==== Sys2Proof/Safety.lean ====
section
/-! DEFINITION. What a state of a sound core looks like, when a command is answered, and what a safe
run is. -/

namespace Sys2Proof.Machine

/-- The invariant of every reachable state: the parameters lie in R8's bounds, `DIN` is canonical and
inside its capacity (R50), `DOUT` is the sequence of length `DOUT_LEN` and fits (R39, R8), `ERRCODE` is
a legal code (R33), and an error or a result is there only after a command has ended (R31, R32). -/
structure State.Inv (s : State) : Prop where
  params_wf : s.params.wf = true
  din_wf : Memory.wf s.din
  din_inside : ∀ e ∈ s.din, e.1 < s.params.dinCap
  dout_length : s.dout.length = s.doutLen.toNat
  dout_fits : s.doutLen.toNat ≤ s.params.doutCap
  errcode_legal : s.errcode.toNat ≤ 6
  error_done : s.errcode ≠ 0 → s.done = true
  result_done : s.doutLen ≠ 0 → s.done = true

/-- `KS_VALID = 1` means `RK` holds the expansion of some key (R23). -/
def State.ScheduleSound (s : State) : Prop := s.ksValid = true → ∃ k : Block, s.rk = expandBlock k

/-- The preconditions of a command (R38, R147, R148): where one fails the spec gives no meaning. -/
def State.Ready (s : State) : Instr → Prop
  | .kexp => True
  | .encb => s.ksValid = true
  | .decb => s.ksValid = true
  | .ecbe => s.dinLen.toNat ≤ s.params.dinCap
  | .ecbd => s.dinLen.toNat ≤ s.params.dinCap
  | .cfbe => s.dinLen.toNat ≤ s.params.dinCap
  | .cfbd => s.dinLen.toNat ≤ s.params.dinCap

/-- What no command writes: the host's operands and registers (R35, R36, R37, R38, R41, R42, R44, D26),
and the model's own fields outside the core. -/
structure State.SameHostSide (s t : State) : Prop where
  keybuf : t.keybuf = s.keybuf
  keyLen : t.keyLen = s.keyLen
  ivbuf : t.ivbuf = s.ivbuf
  ivLen : t.ivLen = s.ivLen
  ivPresent : t.ivPresent = s.ivPresent
  din : t.din = s.din
  dinLen : t.dinLen = s.dinLen
  params : t.params = s.params
  script : t.script = s.script
  answers : t.answers = s.answers
  resetIdx : t.resetIdx = s.resetIdx

/-- A step that goes on. -/
def Answered (o : Host.Outcome State Fault Refusal) : Prop := ∃ t, o = .next t

/-- A safe run: no refusal in the first `k` steps. -/
def SafeFor : Nat → State → Prop
  | 0, _ => True
  | k + 1, s => ∃ t, step s = .next t ∧ SafeFor k t

end Sys2Proof.Machine
end

