-- ==== Sys2Proof/Certificates/Slice0/Obligations.lean ====
section
/-! DEFINITION. The statements for the provers. "R<n>" is a rule of spec/. Where a statement says
"for some w and n", these are the working registers and the index of the next free value, which no
rule fixes after a command (R40). -/

open Sys2Proof Sys2Proof.Machine

/-! ### Encoding and the step -/

/-- R71, R70: every command's byte decodes to it, and a byte that decodes is that command's byte. -/
def Obligations.DecodeEncodeAgree : Prop :=
  (∀ i : Instr, decode (encode i) = .ok i) ∧
  (∀ (op : Byte) (i : Instr), decode op = .ok i → encode i = op)

/-- The seven bytes of R71's table, written out bit by bit, decode to the commands of their rows. -/
def Obligations.OpcodeBytesDecode : Prop :=
  decode 0b00000001#8 = .ok .kexp ∧ decode 0b00000010#8 = .ok .encb ∧
  decode 0b00000011#8 = .ok .decb ∧ decode 0b00000100#8 = .ok .ecbe ∧
  decode 0b00000101#8 = .ok .ecbd ∧ decode 0b00000110#8 = .ok .cfbe ∧
  decode 0b00000111#8 = .ok .cfbd

/-- When the next host action writes the byte of a command the host may issue to `CMD`, the step is
that command on the state with the action taken off the script, and nothing else (R30, R60, R61). The
script, which stands where a processor would fetch at its pc, is the model's choice (log entry 3). -/
def Obligations.StepRunsTheCommand : Prop :=
  ∀ (s : State) (i : Instr) (rest : List HostAction),
    s.script = .write .reg 0 (encode i) :: rest → i.wf s.params = true →
      step s = exec i { s with script := rest }

/-- R73 with R72: a reserved byte written to `CMD` is refused: `0x00`, `0x08` to `0xFF`, and with
`HOST_COMPONENT_CMDS = false` also `0x01` to `0x03`. -/
def Obligations.ReservedBytesAreRefused : Prop :=
  ∀ (s : State) (op : Byte) (rest : List HostAction),
    s.script = .write .reg 0 op :: rest →
    (op.toNat = 0 ∨ 8 ≤ op.toNat ∨ (s.params.hostComponentCmds = false ∧ op.toNat ≤ 3)) →
      step s = .refused (.reservedOpcode op)

/-! ### Reset -/

/-- R45: in the state a machine starts in, and after a RESET in any state, the eight control fields are
0 and `STATUS` and `ERRCODE` read 0 (R230). That a RESET is an action of the script is the model's choice
(log entry 3). -/
def Obligations.ResetClearsTheControlFields : Prop :=
  let cleared (t : State) : Prop :=
    t.keyLen = 0 ∧ t.ivLen = 0 ∧ t.ivPresent = false ∧ t.dinLen = 0 ∧ t.doutLen = 0 ∧
    t.errcode = 0 ∧ t.done = false ∧ t.ksValid = false ∧ t.readByte .reg 1 = 0 ∧
    t.readByte .reg 2 = 0
  cleared State.reset ∧
  ∀ (s : State) (rest : List HostAction), s.script = .reset :: rest →
    ∃ t, step s = .next t ∧ cleared t

/-! ### Invariants -/

/-- The state after reset meets the invariant, and its schedule is (vacuously) sound. -/
def Obligations.ResetMeetsTheInvariant : Prop := State.reset.Inv ∧ State.reset.ScheduleSound

/-- Every step keeps the invariant: `DIN` canonical and inside DIN_CAP, `DOUT` of length DOUT_LEN and
inside DOUT_CAP, ERRCODE legal (R33), errors and results only after a command (R31, R32); and no step
changes the parameters of R8. How `DIN` and `DOUT` are held is the model's choice (log entries 2, 5). -/
def Obligations.StepKeepsTheInvariant : Prop :=
  ∀ s t : State, s.Inv → step s = .next t → t.Inv ∧ t.params = s.params

/-- R23: `KS_VALID = 1` means `RK` holds the expansion of a key; every step keeps that. -/
def Obligations.StepKeepsTheScheduleSound : Prop :=
  ∀ s t : State, s.ScheduleSound → step s = .next t → t.ScheduleSound

/-- R23 and R32: nothing but reset clears `KS_VALID` or `DONE`. -/
def Obligations.OnlyResetClearsTheFlags : Prop :=
  ∀ s t : State, step s = .next t → s.script.head? ≠ some .reset →
    (s.ksValid = true → t.ksValid = true) ∧ (s.done = true → t.done = true)

/-! ### Registers and host accesses -/

/-- R31: `HostRead(REG, 1)` is `DONE | ERR << 1 | KS_VALID << 2`, `ERR` is `ERRCODE != 0`, bits 7:3 are
zero, `ERR = 1` implies `DONE = 1` in every state that meets the invariant, and host writes are
ignored. -/
def Obligations.StatusRegister : Prop :=
  (∀ s : State, (s.readByte .reg 1).getLsbD 0 = s.done ∧
    (s.readByte .reg 1).getLsbD 1 = decide (s.errcode ≠ 0) ∧
    (s.readByte .reg 1).getLsbD 2 = s.ksValid ∧
    (s.readByte .reg 1).toNat ≤ 7) ∧
  (∀ s : State, s.Inv → (s.readByte .reg 1).getLsbD 1 = true → (s.readByte .reg 1).getLsbD 0 = true) ∧
  (∀ (s : State) (v : Byte) (rest : List HostAction), s.script = .write .reg 1 v :: rest →
    step s = .next { s with script := rest })

/-- R35: a write to `IVCTL` keeps bit 0 only, a read returns it, no command writes it, and with
`IV_PRESENT = 0` no command looks at `IV_LEN` or `IVBUF`. -/
def Obligations.IvctlRegister : Prop :=
  (∀ (s : State) (v : Byte) (rest : List HostAction), s.script = .write .reg 3 v :: rest →
    step s = .next { s with script := rest, ivPresent := v.getLsbD 0 }) ∧
  (∀ s : State, s.readByte .reg 3 = if s.ivPresent then 1 else 0) ∧
  (∀ (i : Instr) (s t : State), exec i s = .next t → t.ivPresent = s.ivPresent) ∧
  (∀ (i : Instr) (s t : State) (n : Byte) (b : Block), s.ivPresent = false → exec i s = .next t →
    exec i { s with ivLen := n, ivbuf := b } = .next { t with ivLen := n, ivbuf := b })

/-- R38, R39: `DIN_LEN` and `DOUT_LEN` are little-endian over their four byte registers, and writing one
byte of `DIN_LEN` sets it and leaves the other three. R36, R37: `KEY_LEN` and `IV_LEN` hold whatever byte
the host writes. -/
def Obligations.LengthRegisters : Prop :=
  (∀ s : State, s.dinLen.toNat = (s.readByte .reg 8).toNat + 256 * (s.readByte .reg 9).toNat +
    65536 * (s.readByte .reg 10).toNat + 16777216 * (s.readByte .reg 11).toNat) ∧
  (∀ s : State, s.doutLen.toNat = (s.readByte .reg 12).toNat + 256 * (s.readByte .reg 13).toNat +
    65536 * (s.readByte .reg 14).toNat + 16777216 * (s.readByte .reg 15).toNat) ∧
  (∀ (s : State) (k : Fin 4) (v : Byte) (rest : List HostAction),
    s.script = .write .reg (8 + k.val) v :: rest →
      ∃ t, step s = .next t ∧ t = { s with script := rest, dinLen := t.dinLen } ∧
        ∀ j : Fin 4, t.readByte .reg (8 + j.val) =
          if j = k then v else s.readByte .reg (8 + j.val)) ∧
  (∀ (s : State) (v : Byte) (rest : List HostAction),
    (s.script = .write .reg 4 v :: rest →
      step s = .next { s with script := rest, keyLen := v }) ∧
    (s.script = .write .reg 5 v :: rest →
      step s = .next { s with script := rest, ivLen := v }) ∧
    s.readByte .reg 4 = s.keyLen ∧ s.readByte .reg 5 = s.ivLen)

/-- R56, R26: a write to `STATUS`, `ERRCODE`, `DOUT_LEN`, REG 6, REG 7, `IVOUT`, `RK` or `DOUT` changes
nothing; `CMD`, REG 6 and REG 7 read as 0. -/
def Obligations.ReadOnlyWritesAreIgnored : Prop :=
  (∀ (s : State) (sp : Space) (off : Nat) (v : Byte) (rest : List HostAction),
    s.script = .write sp off v :: rest → off < sp.size s.params →
    (sp ∈ [Space.ivout, .rk, .dout] ∨ (sp = .reg ∧ off ∈ [1, 2, 6, 7, 12, 13, 14, 15])) →
      step s = .next { s with script := rest }) ∧
  (∀ s : State, s.readByte .reg 0 = 0 ∧ s.readByte .reg 6 = 0 ∧ s.readByte .reg 7 = 0)

/-- R55: a host read inside a space returns one byte and changes no state: the buffers' own bytes,
`ERRCODE`, `DOUT` below `DOUT_LEN`, and `RK[4i+k]` = byte `k` of `W[i]` when `KS_VALID = 1`. That the
byte goes to `answers` is the model's choice (log entry 5). -/
def Obligations.HostReadReturnsTheByte : Prop :=
  ∀ (s : State) (sp : Space) (off : Nat) (rest : List HostAction),
    s.script = .read sp off :: rest → off < sp.size s.params →
    (∃ b, b = s.readByte sp off ∧
      step s = .next { s with script := rest, answers := s.answers ++ [b] }) ∧
    (∀ h : off < 16, sp = .keybuf → s.readByte sp off = s.keybuf[off]) ∧
    (∀ h : off < 16, sp = .ivbuf → s.readByte sp off = s.ivbuf[off]) ∧
    (∀ h : off < 16, sp = .ivout → s.readByte sp off = s.ivout[off]) ∧
    (sp = .din → ∀ v, s.din.read off = some v → s.readByte sp off = v) ∧
    (∀ h : off < s.dout.length, sp = .dout → off < s.doutLen.toNat →
      s.readByte sp off = s.dout[off]) ∧
    (∀ (i : Fin 44) (k : Fin 4), sp = .rk → off = 4 * i.val + k.val → s.ksValid = true →
      s.readByte sp off = (s.rk[i])[k]) ∧
    (sp = .reg → off = 2 → s.readByte sp off = s.errcode)

/-- R56, R61: a byte written to `KEYBUF`, `IVBUF` or `DIN` reads back as written, and every other byte
of every space reads as before. -/
def Obligations.HostWriteThenRead : Prop :=
  ∀ (s : State) (sp : Space) (off : Nat) (v : Byte) (rest : List HostAction),
    s.script = .write sp off v :: rest → off < sp.size s.params →
    sp ∈ [Space.keybuf, .ivbuf, .din] →
      ∃ t, step s = .next t ∧ t.script = rest ∧ t.readByte sp off = v ∧
        ∀ (sp' : Space) (off' : Nat), (sp', off') ≠ (sp, off) →
          t.readByte sp' off' = s.readByte sp' off'

/-- R51: a host access outside its space, or to no space, is refused. -/
def Obligations.AccessOutsideASpaceIsRefused : Prop :=
  (∀ (s : State) (sp : Space) (off : Nat) (v : Byte) (rest : List HostAction),
    s.script = .write sp off v :: rest → sp.size s.params ≤ off →
      step s = .refused (.offsetOutsideSpace sp off)) ∧
  (∀ (s : State) (sp : Space) (off : Nat) (rest : List HostAction),
    s.script = .read sp off :: rest → sp.size s.params ≤ off →
      step s = .refused (.offsetOutsideSpace sp off)) ∧
  (∀ (s : State) (rest : List HostAction), s.script = .elsewhere :: rest →
    step s = .refused .unknownSpace)

/-! ### GF(2^8) and the S-box -/

/-- R91: `XTIME` doubles, drops bit 7 and reduces by `0x1B` when bit 7 was 1; it is a bijection. -/
def Obligations.XtimeDoublesAndReduces : Prop :=
  (∀ a : Byte, (xtime a).toNat =
    if 128 ≤ a.toNat then ((2 * a.toNat) % 256) ^^^ 0x1B else 2 * a.toNat) ∧
  Function.Bijective xtime

/-- The laws of `GMUL` (40_gf_sbox.md section 1): commutative, associative, distributive over `^`, the
products by 0, 1, 2 and 3, and no two non-zero elements multiply to zero. -/
def Obligations.FieldMultiplicationLaws : Prop :=
  (∀ a b : Byte, gmul a b = gmul b a) ∧
  (∀ a b c : Byte, gmul (gmul a b) c = gmul a (gmul b c)) ∧
  (∀ a b c : Byte, gmul a (b ^^^ c) = gmul a b ^^^ gmul a c) ∧
  (∀ a : Byte, gmul a 0 = 0 ∧ gmul a 1 = a ∧ gmul a 2 = xtime a ∧ gmul a 3 = xtime a ^^^ a) ∧
  (∀ a b : Byte, a ≠ 0 → b ≠ 0 → gmul a b ≠ 0)

/-- R93: `GINV(0) = 0`; for `a != 0`, `GINV(a)` is the one byte `y` with `GMUL(a, y) = 1`; and
`GINV(GINV(a)) = a`. -/
def Obligations.InverseIsUnique : Prop :=
  ginv 0 = 0 ∧
  (∀ a y : Byte, a ≠ 0 → (gmul a y = 1 ↔ y = ginv a)) ∧
  (∀ a : Byte, ginv (ginv a) = a)

/-- R94, bit by bit with `c = 0x63` and in its form with rotations; R95: the table is `AFFINE(GINV(a))`,
a permutation with no fixed point and no `SBOX(a) = a ^ 0xff`. -/
def Obligations.SboxIsAffineOfInverse : Prop :=
  (∀ (x : Byte) (i : Fin 8), (affine x).getLsbD i.val =
    (x.getLsbD i.val ^^ x.getLsbD ((i.val + 4) % 8) ^^ x.getLsbD ((i.val + 5) % 8) ^^
      x.getLsbD ((i.val + 6) % 8) ^^ x.getLsbD ((i.val + 7) % 8) ^^
      (0x63 : Byte).getLsbD i.val)) ∧
  (let rotl8 (x : Byte) (n : Nat) : Byte := (x <<< n) ||| (x >>> (8 - n))
   ∀ x : Byte, affine x = x ^^^ rotl8 x 1 ^^^ rotl8 x 2 ^^^ rotl8 x 3 ^^^ rotl8 x 4 ^^^ 0x63) ∧
  (∀ a : Byte, sbox a = affine (ginv a)) ∧ Function.Bijective sbox ∧
  (∀ a : Byte, sbox a ≠ a ∧ sbox a ≠ a ^^^ 0xff)

/-- R96: `INVSBOX` is the inverse permutation of `SBOX`. -/
def Obligations.InvSboxInvertsSbox : Prop :=
  (∀ a : Byte, invSbox (sbox a) = a) ∧ (∀ b : Byte, sbox (invSbox b) = b)

/-! ### Key schedule -/

/-- R113: the ten round constants. -/
def Obligations.RoundConstants : Prop :=
  rcByte 1 = 0x01 ∧ (∀ j, 2 ≤ j → j ≤ 10 → rcByte j = xtime (rcByte (j - 1))) ∧
  (List.range 10).map (fun j => rcByte (j + 1)) =
    [0x01, 0x02, 0x04, 0x08, 0x10, 0x20, 0x40, 0x80, 0x1b, 0x36] ∧
  ∀ j, 1 ≤ j → j ≤ 10 → rcon j = #v[rcByte j, 0, 0, 0]

/-- R114 (with R110): `ExpandKey` fails exactly on a key that is not 16 bytes, with InvalidKeyLength;
otherwise `W[0..3]` are the key's bytes in order and `W[i] = W[i-4] ^ t` for `i = 4..43`. -/
def Obligations.ExpandKeyRecurrence : Prop :=
  (∀ k : List Byte, k.length ≠ 16 → expandKey k = .error .invalidKeyLength) ∧
  (∀ k : List Byte, k.length = 16 → ∃ W : Schedule, expandKey k = .ok W ∧
    (∀ (j b : Fin 4), (W[j])[b] = k.getD (4 * j.val + b.val) 0) ∧
    (∀ (i : Nat) (_ : 4 ≤ i) (_ : i < 44),
      W[i] = xorWord W[i - 4]
        (if i % 4 = 0 then xorWord (subWord (rotWord W[i - 1])) (rcon (i / 4)) else W[i - 1])))

/-- R115: round key `rnd` is the words `4*rnd .. 4*rnd+3` laid end to end, the bytes
`RK[16*rnd .. 16*rnd+16)`, and round key 0 is the key itself. -/
def Obligations.RoundKeysAreFourWords : Prop :=
  (∀ (W : Schedule) (rnd : Fin 11), (roundKey W rnd).toList =
    (W[4 * rnd.val]).toList ++ (W[4 * rnd.val + 1]).toList ++
      (W[4 * rnd.val + 2]).toList ++ (W[4 * rnd.val + 3]).toList) ∧
  (∀ (W : Schedule) (rnd : Fin 11) (b : Fin 16),
    (roundKey W rnd)[b] = rkByte W ⟨16 * rnd.val + b.val, by omega⟩) ∧
  (∀ k : Block, roundKey (expandBlock k) 0 = k)

/-! ### Round stages and the block cipher -/

/-- R127 and R131: `ShiftRows` and `InvShiftRows` as the index tables `SR` and `ISR`. -/
def Obligations.ShiftRowsIndexTables : Prop :=
  (∀ (b : Block) (i : Fin 16), (shiftRows b)[i] =
    b[(#v[0, 5, 10, 15, 4, 9, 14, 3, 8, 13, 2, 7, 12, 1, 6, 11] : Vector (Fin 16) 16)[i]]) ∧
  (∀ (b : Block) (i : Fin 16), (invShiftRows b)[i] =
    b[(#v[0, 13, 10, 7, 4, 1, 14, 11, 8, 5, 2, 15, 12, 9, 6, 3] : Vector (Fin 16) 16)[i]])

/-- R128, R132: `MixColumns` and `InvMixColumns` multiply every column by the fixed matrix `M` and by
`M'`, entry by entry; the product `M' * M` is the identity; both are linear; and a column of four equal
bytes is unchanged by both. -/
def Obligations.MixColumnsIsTheMatrixProduct : Prop :=
  let M : Fin 4 → Fin 4 → Byte := ![![2, 3, 1, 1], ![1, 2, 3, 1], ![1, 1, 2, 3], ![3, 1, 1, 2]]
  let M' : Fin 4 → Fin 4 → Byte :=
    ![![0x0e, 0x0b, 0x0d, 0x09], ![0x09, 0x0e, 0x0b, 0x0d], ![0x0d, 0x09, 0x0e, 0x0b],
      ![0x0b, 0x0d, 0x09, 0x0e]]
  (∀ (b : Block) (r c : Fin 4), cell (mixColumns b) r c =
    gmul (M r 0) (cell b 0 c) ^^^ gmul (M r 1) (cell b 1 c) ^^^
      gmul (M r 2) (cell b 2 c) ^^^ gmul (M r 3) (cell b 3 c)) ∧
  (∀ (b : Block) (r c : Fin 4), cell (invMixColumns b) r c =
    gmul (M' r 0) (cell b 0 c) ^^^ gmul (M' r 1) (cell b 1 c) ^^^
      gmul (M' r 2) (cell b 2 c) ^^^ gmul (M' r 3) (cell b 3 c)) ∧
  (∀ r c : Fin 4, gmul (M' r 0) (M 0 c) ^^^ gmul (M' r 1) (M 1 c) ^^^ gmul (M' r 2) (M 2 c) ^^^
    gmul (M' r 3) (M 3 c) = if r = c then 1 else 0) ∧
  (∀ a b : Block, mixColumns (xorBlock a b) = xorBlock (mixColumns a) (mixColumns b) ∧
    invMixColumns (xorBlock a b) = xorBlock (invMixColumns a) (invMixColumns b)) ∧
  (∀ x : Byte, mixColumn #v[x, x, x, x] = #v[x, x, x, x] ∧
    invMixColumn #v[x, x, x, x] = #v[x, x, x, x])

/-- R134: each stage and its inverse undo each other in both orders, and the byte substitutions
commute with the row shifts. -/
def Obligations.StageInverses : Prop :=
  ∀ b k : Block,
    invSubBytes (subBytes b) = b ∧ subBytes (invSubBytes b) = b ∧
    invShiftRows (shiftRows b) = b ∧ shiftRows (invShiftRows b) = b ∧
    invMixColumns (mixColumns b) = b ∧ mixColumns (invMixColumns b) = b ∧
    addRoundKey (addRoundKey b k) k = b ∧
    subBytes (shiftRows b) = shiftRows (subBytes b) ∧
    invSubBytes (invShiftRows b) = invShiftRows (invSubBytes b)

/-- R145, R146: `EncryptBlock` and `DecryptBlock` fail exactly on a sequence that is not 16 bytes;
otherwise the key-adds and rounds run in order, the last encryption round without `MixColumns`, and
decryption runs the inverse stages in reverse round order. -/
def Obligations.BlockFunctionsFollowTheRounds : Prop :=
  ∀ (p : List Byte) (W : Schedule),
    (p.length ≠ 16 → encryptBlock p W = .error .invalidBlockLength ∧
      decryptBlock p W = .error .invalidBlockLength) ∧
    (p.length = 16 → ∃ st : Nat → Block,
      st 0 = addRoundKey (blockAt p 0) (roundKey W 0) ∧
      (∀ rnd : Fin 11, 1 ≤ rnd.val → rnd.val ≤ 9 →
        st rnd.val = addRoundKey (mixColumns (shiftRows (subBytes (st (rnd.val - 1)))))
          (roundKey W rnd)) ∧
      encryptBlock p W = .ok (addRoundKey (shiftRows (subBytes (st 9))) (roundKey W 10))) ∧
    (p.length = 16 → ∃ st : Nat → Block,
      st 10 = invSubBytes (invShiftRows (addRoundKey (blockAt p 0) (roundKey W 10))) ∧
      (∀ rnd : Fin 11, 1 ≤ rnd.val → rnd.val ≤ 9 →
        st rnd.val = invSubBytes (invShiftRows (invMixColumns (addRoundKey (st (rnd.val + 1))
          (roundKey W rnd))))) ∧
      decryptBlock p W = .ok (addRoundKey (st 1) (roundKey W 0)))

/-- D00's known-answer test, the example of R145, in both directions. -/
def Obligations.KnownAnswerTest : Prop :=
  encrypt (expandBlock (hexBlock 0x000102030405060708090a0b0c0d0e0f))
      (hexBlock 0x00112233445566778899aabbccddeeff) =
    hexBlock 0x69c4e0d86a7b0430d8cdb78070b4c55a ∧
  decrypt (expandBlock (hexBlock 0x000102030405060708090a0b0c0d0e0f))
      (hexBlock 0x69c4e0d86a7b0430d8cdb78070b4c55a) =
    hexBlock 0x00112233445566778899aabbccddeeff

/-- R149: decryption undoes encryption and encryption undoes decryption, under any 44 words. -/
def Obligations.BlockCipherRoundTrip : Prop :=
  ∀ (W : Schedule) (b : Block), decrypt W (encrypt W b) = b ∧ encrypt W (decrypt W b) = b

/-! ### Padding and the modes as functions -/

/-- R160: `Pad` appends `n` bytes of value `n`, `n = 16 - (len mod 16)`, `1 <= n <= 16`, and the padded
length is `16 * (len div 16 + 1)`. R161: on a sequence of at least 16 bytes whose length is a multiple of
16, `Unpad` gives `r` exactly when the sequence is `r` followed by `n` bytes of value `n` with
`1 <= n <= 16`, and InvalidPadding otherwise; and `Unpad(Pad(p)) = p`. -/
def Obligations.PaddingIsPkcs7 : Prop :=
  (∀ p : List Byte, ∃ n : Nat, 1 ≤ n ∧ n ≤ 16 ∧ n = 16 - p.length % 16 ∧
    pad p = p ++ List.replicate n (BitVec.ofNat 8 n) ∧
    (pad p).length = 16 * (p.length / 16 + 1)) ∧
  (∀ q r : List Byte, 16 ≤ q.length → q.length % 16 = 0 →
    (unpad q = .ok r ↔ ∃ n : Nat, 1 ≤ n ∧ n ≤ 16 ∧ q = r ++ List.replicate n (BitVec.ofNat 8 n))) ∧
  (∀ q : List Byte, 16 ≤ q.length → q.length % 16 = 0 →
    (∀ r, unpad q ≠ .ok r) → unpad q = .error .invalidPadding) ∧
  (∀ p : List Byte, unpad (pad p) = .ok p)

/-- R162, R166: block `j` of an ECB encryption is the encryption of block `j` of the padded plaintext
and of nothing else. -/
def Obligations.EcbBlocksAreIndependent : Prop :=
  ∀ (W : Schedule) (p : List Byte),
    (ecbEncryptWith W p).length = (pad p).length ∧
    ∀ j : Nat, j < (pad p).length / 16 →
      blockAt (ecbEncryptWith W p) j = encrypt W (blockAt (pad p) j)

/-- R168: ECB round trip, for every 16-byte key and every byte sequence. -/
def Obligations.EcbRoundTrip : Prop :=
  ∀ k p : List Byte, k.length = 16 →
    ∃ c, ecbEncrypt p k = .ok c ∧ ecbDecrypt c k = .ok p

/-- R180: the segments laid end to end are the sequence; there are `(L + 15) div 16`, none empty, every
one but the last of 16 bytes. -/
def Obligations.SegmentsPartitionTheSequence : Prop :=
  ∀ x : List Byte, (segments x).flatten = x ∧ (segments x).length = (x.length + 15) / 16 ∧
    (∀ seg ∈ segments x, 1 ≤ seg.length ∧ seg.length ≤ 16) ∧
    (∀ seg ∈ (segments x).dropLast, seg.length = 16)

/-- R181, R182: segment `j` of the result is segment `j` of the operand under the encryption of the
feedback register, which is the IV first and then the ciphertext segment before, in both directions;
the result is as long as the operand. -/
def Obligations.CfbSegmentEquations : Prop :=
  ∀ (W : Schedule) (iv : Block) (p c : List Byte),
    (cfbEncryptLoop p W iv).length = p.length ∧ (cfbDecryptLoop c W iv).length = c.length ∧
    (∀ j : Nat, j < (p.length + 15) / 16 →
      segmentAt (cfbEncryptLoop p W iv) j = xorBytes (segmentAt p j)
        (encrypt W (if j = 0 then iv else blockAt (cfbEncryptLoop p W iv) (j - 1))).toList) ∧
    (∀ j : Nat, j < (c.length + 15) / 16 →
      segmentAt (cfbDecryptLoop c W iv) j = xorBytes (segmentAt c j)
        (encrypt W (if j = 0 then iv else blockAt c (j - 1))).toList)

/-- R186 (a), (b): CFB keeps the length and decryption with the same key and IV undoes encryption. -/
def Obligations.CfbRoundTrip : Prop :=
  ∀ (W : Schedule) (iv : Block) (p : List Byte),
    (cfbEncryptLoop p W iv).length = p.length ∧
    cfbDecryptLoop (cfbEncryptLoop p W iv) W iv = p

/-- R186 (c) with its premise: different IVs give different ciphertexts of a plaintext of at least 16
bytes. -/
def Obligations.CfbIvSensitivity : Prop :=
  ∀ (W : Schedule) (iv iv' : Block) (p : List Byte), 16 ≤ p.length → iv ≠ iv' →
    cfbEncryptLoop p W iv ≠ cfbEncryptLoop p W iv'

/-! ### The commands -/

/-- R116: KEXP. -/
def Obligations.KexpExpandsTheKey : Prop :=
  ∀ s : State,
    (s.keyLen = 16 → ∃ (w : Work) (n : Nat), exec .kexp s = .next
      { s with errcode := 0, rk := expandBlock s.keybuf, ksValid := true, done := true,
               work := w, free := n }) ∧
    (s.keyLen ≠ 16 → ∃ (w : Work) (n : Nat), exec .kexp s = .next
      { s with errcode := 0x01, done := true, work := w, free := n })

/-- R147: ENCB. -/
def Obligations.EncbEncryptsTheBlock : Prop :=
  ∀ s : State,
    (s.ksValid = true → s.dinLen = 16 → ∃ (w : Work) (n : Nat), exec .encb s = .next
      { s with errcode := 0, dout := (encrypt s.rk (Vector.ofFn fun i => s.dinByte i.val)).toList,
               doutLen := 16, done := true, work := w, free := n }) ∧
    (s.ksValid = true → s.dinLen ≠ 16 → ∃ (w : Work) (n : Nat), exec .encb s = .next
      { s with errcode := 0x03, dout := [], doutLen := 0, done := true, work := w, free := n }) ∧
    (s.ksValid = false → exec .encb s = .refused .noSchedule)

/-- R148: DECB. -/
def Obligations.DecbDecryptsTheBlock : Prop :=
  ∀ s : State,
    (s.ksValid = true → s.dinLen = 16 → ∃ (w : Work) (n : Nat), exec .decb s = .next
      { s with errcode := 0, dout := (decrypt s.rk (Vector.ofFn fun i => s.dinByte i.val)).toList,
               doutLen := 16, done := true, work := w, free := n }) ∧
    (s.ksValid = true → s.dinLen ≠ 16 → ∃ (w : Work) (n : Nat), exec .decb s = .next
      { s with errcode := 0x03, dout := [], doutLen := 0, done := true, work := w, free := n }) ∧
    (s.ksValid = false → exec .decb s = .refused .noSchedule)

/-- R164: ECBE. -/
def Obligations.EcbeEncryptsTheData : Prop :=
  ∀ s : State,
    (s.dinLen.toNat ≤ s.params.dinCap → s.keyLen = 16 →
      ∃ (w : Work) (n : Nat), exec .ecbe s = .next
        { s with errcode := 0, rk := expandBlock s.keybuf, ksValid := true,
                 dout := ecbEncryptWith (expandBlock s.keybuf)
                   ((List.range s.dinLen.toNat).map s.dinByte),
                 doutLen := BitVec.ofNat 32 (16 * (s.dinLen.toNat / 16 + 1)), done := true,
                 work := w, free := n }) ∧
    (s.dinLen.toNat ≤ s.params.dinCap → s.keyLen ≠ 16 →
      ∃ (w : Work) (n : Nat), exec .ecbe s = .next
        { s with errcode := 0x01, dout := [], doutLen := 0, done := true, work := w, free := n }) ∧
    (s.params.dinCap < s.dinLen.toNat → exec .ecbe s = .refused .dataLongerThanBuffer)

/-- R165: ECBD. A wrong key length is the error reported under `ERR_ORDER = fixed` (`OrderOfChecks` says
what `any` reports there); with a good key length the outcome is the same under both orders. -/
def Obligations.EcbdDecryptsTheData : Prop :=
  ∀ s : State,
    (s.params.errOrder = .fixed → s.dinLen.toNat ≤ s.params.dinCap → s.keyLen ≠ 16 →
      ∃ (w : Work) (n : Nat), exec .ecbd s = .next
        { s with errcode := 0x01, dout := [], doutLen := 0, done := true, work := w, free := n }) ∧
    (s.dinLen.toNat ≤ s.params.dinCap → s.keyLen = 16 →
      (s.dinLen = 0 ∨ s.dinLen.toNat % 16 ≠ 0) →
      ∃ (w : Work) (n : Nat), exec .ecbd s = .next
        { s with errcode := 0x04, dout := [], doutLen := 0, done := true, work := w, free := n }) ∧
    (s.dinLen.toNat ≤ s.params.dinCap → s.keyLen = 16 → s.dinLen ≠ 0 → s.dinLen.toNat % 16 = 0 →
      ∀ r, unpad (ecbDecryptWith (expandBlock s.keybuf)
          ((List.range s.dinLen.toNat).map s.dinByte)) = .ok r →
      ∃ (w : Work) (n : Nat), exec .ecbd s = .next
        { s with errcode := 0, rk := expandBlock s.keybuf, ksValid := true, dout := r,
                 doutLen := BitVec.ofNat 32 r.length, done := true, work := w, free := n }) ∧
    (s.dinLen.toNat ≤ s.params.dinCap → s.keyLen = 16 → s.dinLen ≠ 0 → s.dinLen.toNat % 16 = 0 →
      (∀ r, unpad (ecbDecryptWith (expandBlock s.keybuf)
          ((List.range s.dinLen.toNat).map s.dinByte)) ≠ .ok r) →
      ∃ (w : Work) (n : Nat), exec .ecbd s = .next
        { s with errcode := 0x05, rk := expandBlock s.keybuf, ksValid := true, dout := [],
                 doutLen := 0, done := true, work := w, free := n }) ∧
    (s.params.dinCap < s.dinLen.toNat → exec .ecbd s = .refused .dataLongerThanBuffer)

/-- R184: CFBE. A wrong key length is the error reported under `ERR_ORDER = fixed` (`OrderOfChecks` says
what `any` reports there); with a good key length the outcome is the same under both orders. The IV used
is the supplied one, or a drawn one (`RandomSourceConsultedOnce` says which). -/
def Obligations.CfbeEncryptsTheData : Prop :=
  ∀ s : State,
    (s.params.errOrder = .fixed → s.dinLen.toNat ≤ s.params.dinCap → s.keyLen ≠ 16 →
      ∃ (w : Work) (n : Nat), exec .cfbe s = .next
        { s with errcode := 0x01, dout := [], doutLen := 0, done := true, work := w, free := n }) ∧
    (s.dinLen.toNat ≤ s.params.dinCap → s.keyLen = 16 → s.ivPresent = true → s.ivLen ≠ 16 →
      ∃ (w : Work) (n : Nat), exec .cfbe s = .next
        { s with errcode := 0x02, dout := [], doutLen := 0, done := true, work := w, free := n }) ∧
    (s.dinLen.toNat ≤ s.params.dinCap → s.keyLen = 16 → (s.ivPresent = true → s.ivLen = 16) →
      ∃ (iv : Block) (w : Work) (n d : Nat), (s.ivPresent = true → iv = s.ivbuf) ∧
        exec .cfbe s = .next
          { s with errcode := 0, rk := expandBlock s.keybuf, ksValid := true, ivout := iv,
                   dout := cfbEncryptLoop ((List.range s.dinLen.toNat).map s.dinByte)
                     (expandBlock s.keybuf) iv,
                   doutLen := s.dinLen, done := true, work := w, free := n, draws := d }) ∧
    (s.params.dinCap < s.dinLen.toNat → exec .cfbe s = .refused .dataLongerThanBuffer)

/-- R185: CFBD. A wrong key length is the error reported under `ERR_ORDER = fixed` (`OrderOfChecks` says
what `any` reports there); with a good key length the outcome is the same under both orders. -/
def Obligations.CfbdDecryptsTheData : Prop :=
  ∀ s : State,
    (s.params.errOrder = .fixed → s.dinLen.toNat ≤ s.params.dinCap → s.keyLen ≠ 16 →
      ∃ (w : Work) (n : Nat), exec .cfbd s = .next
        { s with errcode := 0x01, dout := [], doutLen := 0, done := true, work := w, free := n }) ∧
    (s.dinLen.toNat ≤ s.params.dinCap → s.keyLen = 16 → s.ivPresent = false →
      ∃ (w : Work) (n : Nat), exec .cfbd s = .next
        { s with errcode := 0x06, dout := [], doutLen := 0, done := true, work := w, free := n }) ∧
    (s.dinLen.toNat ≤ s.params.dinCap → s.keyLen = 16 → s.ivPresent = true → s.ivLen ≠ 16 →
      ∃ (w : Work) (n : Nat), exec .cfbd s = .next
        { s with errcode := 0x02, dout := [], doutLen := 0, done := true, work := w, free := n }) ∧
    (s.dinLen.toNat ≤ s.params.dinCap → s.keyLen = 16 → s.ivPresent = true → s.ivLen = 16 →
      ∃ (w : Work) (n : Nat), exec .cfbd s = .next
        { s with errcode := 0, rk := expandBlock s.keybuf, ksValid := true,
                 dout := cfbDecryptLoop ((List.range s.dinLen.toNat).map s.dinByte)
                   (expandBlock s.keybuf) s.ivbuf,
                 doutLen := s.dinLen, done := true, work := w, free := n }) ∧
    (s.params.dinCap < s.dinLen.toNat → exec .cfbd s = .refused .dataLongerThanBuffer)

/-- Every command answers a next state exactly when its precondition holds (R38, R147, R148); nothing
ever faults. That a missing precondition counts before the length checks is log entry 12. -/
def Obligations.CommandAnswersExactlyWhenReady : Prop :=
  ∀ (i : Instr) (s : State), (Answered (exec i s) ↔ s.Ready i) ∧ ∀ f, exec i s ≠ .fault f

/-- The frame of all seven commands (D26, R74): no operand, host register, parameter or pending host
action changes, and every byte of `KEYBUF`, `IVBUF` and `DIN` reads as before; ENCB and DECB leave `RK`
and `KS_VALID`, KEXP leaves `DOUT` and `DOUT_LEN`; all but CFBE leave `IVOUT`. -/
def Obligations.CommandFrame : Prop :=
  ∀ (i : Instr) (s t : State), exec i s = .next t →
    s.SameHostSide t ∧
    (∀ sp ∈ [Space.keybuf, .ivbuf, .din], ∀ off, t.readByte sp off = s.readByte sp off) ∧
    (i ≠ .cfbe → t.ivout = s.ivout ∧ t.draws = s.draws ∧
      ∀ off, t.readByte .ivout off = s.readByte .ivout off) ∧
    (i = .encb ∨ i = .decb → t.rk = s.rk ∧ t.ksValid = s.ksValid ∧
      ∀ off, t.readByte .rk off = s.readByte .rk off) ∧
    (i = .kexp → t.dout = s.dout ∧ t.doutLen = s.doutLen ∧
      ∀ off, t.readByte .dout off = s.readByte .dout off)

/-- R43: `IVOUT` is written only by a CFBE that ends without error, with the IV it used: the supplied
one when there is one. Every other command, a CFBE that raises, and the host leave it. -/
def Obligations.IvoutWrittenByCfbeOnly : Prop :=
  (∀ (i : Instr) (s t : State), exec i s = .next t → (i ≠ .cfbe ∨ t.errcode ≠ 0) →
    t.ivout = s.ivout) ∧
  (∀ s t : State, exec .cfbe s = .next t → t.errcode = 0 →
    (s.ivPresent = true → t.ivout = s.ivbuf) ∧
    t.dout = cfbEncryptLoop s.dataOperand (expandBlock s.keybuf) t.ivout) ∧
  (∀ (s t : State) (sp : Space) (off : Nat) (v : Byte),
    hostWrite s sp off v = .next t → t.ivout = s.ivout)

/-- R207: the order of checks. Under `fixed` the first failing check of the command's row is reported;
under `any`, one of the failing length checks; and a length error writes no state but `ERRCODE`,
`DOUT_LEN` (with the result) and `DONE`. That MissingIV is one of the length checks `any` chooses among is
not R207's word but log entry 7 (DEDUCED). -/
def Obligations.OrderOfChecks : Prop :=
  ∀ (i : Instr) (s t : State), exec i s = .next t →
    (let key := i ∈ [Instr.kexp, .ecbe, .ecbd, .cfbe, .cfbd] ∧ s.keyLen ≠ 16
     let block := (i = .encb ∨ i = .decb) ∧ s.dinLen ≠ 16
     let length := i = .ecbd ∧ (s.dinLen = 0 ∨ s.dinLen.toNat % 16 ≠ 0)
     let noIv := i = .cfbd ∧ s.ivPresent = false
     let iv := (i = .cfbe ∨ i = .cfbd) ∧ s.ivPresent = true ∧ s.ivLen ≠ 16
     (s.params.errOrder = .fixed →
       (t.errcode = 0x01 ↔ key) ∧ (t.errcode = 0x02 ↔ ¬ key ∧ iv) ∧ (t.errcode = 0x03 ↔ block) ∧
       (t.errcode = 0x04 ↔ ¬ key ∧ length) ∧ (t.errcode = 0x06 ↔ ¬ key ∧ noIv)) ∧
     (s.params.errOrder = .any → (key ∨ block ∨ length ∨ noIv ∨ iv) →
       (t.errcode = 0x01 ∧ key) ∨ (t.errcode = 0x02 ∧ iv) ∨ (t.errcode = 0x03 ∧ block) ∨
       (t.errcode = 0x04 ∧ length) ∨ (t.errcode = 0x06 ∧ noIv)) ∧
     (t.errcode = 0x05 → i = .ecbd ∧ ¬ key ∧ ¬ length) ∧
     ((key ∨ block ∨ length ∨ noIv ∨ iv) → ∃ (e : Byte) (r : List Byte) (x : BitVec 32) (w : Work)
       (n : Nat), t = { s with errcode := e, dout := r, doutLen := x, done := true,
                               work := w, free := n }))

/-- R208: error entry. A command that ends with an error sets `DONE`, has `DOUT_LEN = 0` if it is a data
command (KEXP leaves it), and changes nothing else, except that InvalidPadding leaves the new schedule
standing. -/
def Obligations.ErrorEntry : Prop :=
  ∀ (i : Instr) (s t : State), exec i s = .next t → t.errcode ≠ 0 →
    t.done = true ∧ (t.readByte .reg 1).getLsbD 1 = true ∧
    (i ≠ .kexp → t.doutLen = 0 ∧ t.dout = []) ∧
    (i = .kexp → t.doutLen = s.doutLen ∧ t.dout = s.dout) ∧
    s.SameHostSide t ∧ t.ivout = s.ivout ∧ t.draws = s.draws ∧
    (t.errcode ≠ 0x05 → t.rk = s.rk ∧ t.ksValid = s.ksValid) ∧
    (t.errcode = 0x05 → i = .ecbd ∧ t.rk = expandBlock s.keybuf ∧ t.ksValid = true)

/-- R40, R209: a command depends on nothing the commands before it left in the working registers, in
`ERRCODE` or in `DONE`: it writes them before it could read them. -/
def Obligations.LeftoversAreNotRead : Prop :=
  ∀ (i : Instr) (s : State) (w : Work) (e : Byte) (d : Bool) (t : State), exec i s = .next t →
    exec i { s with work := w, errcode := e, done := d } = .next t

/-- R147, R148, R201, R202: ENCB and DECB do not look at the key or the IV registers, so writing a new
key does not re-key them (R234); KEXP, ECBE and ECBD do not look at the IV registers. -/
def Obligations.CommandsIgnoreUnusedOperands : Prop :=
  (∀ (i : Instr) (s t : State) (k : Block) (n : Byte), (i = .encb ∨ i = .decb) →
    exec i s = .next t →
      exec i { s with keybuf := k, keyLen := n } = .next { t with keybuf := k, keyLen := n }) ∧
  (∀ (i : Instr) (s t : State) (v : Block) (n : Byte) (p : Bool), i ≠ .cfbe → i ≠ .cfbd →
    exec i s = .next t →
      exec i { s with ivbuf := v, ivLen := n, ivPresent := p } =
        .next { t with ivbuf := v, ivLen := n, ivPresent := p })

/-- R117: a mode command that passes its length checks leaves the schedule of the key in `KEYBUF` in
`RK`, with `KS_VALID = 1`; one that fails a length check leaves both as they were. -/
def Obligations.ModeCommandsLoadTheSchedule : Prop :=
  ∀ (i : Instr) (s t : State), i.hostLevel = true → exec i s = .next t →
    ((t.errcode = 0 ∨ t.errcode = 0x05) → t.rk = expandBlock s.keybuf ∧ t.ksValid = true) ∧
    (t.errcode ≠ 0 → t.errcode ≠ 0x05 → t.rk = s.rk ∧ t.ksValid = s.ksValid)

/-- R212, R183: the random source is consulted exactly once by each CFBE with `IV_PRESENT = 0` that passes
its checks, and never otherwise; and the drawn value is the IV used, visible in `IVOUT`. The counter of
draws, which numbers them, is the model's own (log entry 8), and the drawn value is free. -/
def Obligations.RandomSourceConsultedOnce : Prop :=
  (∀ (i : Instr) (s t : State), exec i s = .next t →
    t.draws = s.draws + (if i = .cfbe ∧ s.ivPresent = false ∧ t.errcode = 0 then 1 else 0)) ∧
  (∀ s t : State, exec .cfbe s = .next t → s.ivPresent = false → t.errcode = 0 →
    t.ivout = Config.draw16 s.draws ∧
    t.dout = cfbEncryptLoop s.dataOperand (expandBlock s.keybuf) (Config.draw16 s.draws))

/-- R39, R53: after a data command that ends without error the host reads byte `j` of the result at
`DOUT[j]`, and no byte beyond it is part of the result. -/
def Obligations.ResultIsReadable : Prop :=
  ∀ (i : Instr) (s t : State), s.Inv → exec i s = .next t → isDataCommand i = true →
    t.dout.length = t.doutLen.toNat ∧
    ∀ (j : Nat) (h : j < t.dout.length), t.readByte .dout j = t.dout[j]

/-- R168 at the interface: ECBE, then ECBD of the result under the same key, returns the plaintext. -/
def Obligations.EcbeThenEcbdReturnsThePlaintext : Prop :=
  ∀ s t u : State, exec .ecbe s = .next t → t.errcode = 0 →
    u.keyLen = 16 → u.keybuf = s.keybuf → u.dinLen.toNat ≤ u.params.dinCap →
    u.dataOperand = t.dout →
      ∃ v, exec .ecbd u = .next v ∧ v.errcode = 0 ∧ v.dout = s.dataOperand

/-- R186 (b) at the interface: CFBE, with a supplied or a drawn IV, then CFBD of the result under the
same key and the IV from `IVOUT`, returns the plaintext. -/
def Obligations.CfbeThenCfbdReturnsThePlaintext : Prop :=
  ∀ s t u : State, exec .cfbe s = .next t → t.errcode = 0 →
    u.keyLen = 16 → u.keybuf = s.keybuf → u.ivPresent = true → u.ivLen = 16 → u.ivbuf = t.ivout →
    u.dinLen.toNat ≤ u.params.dinCap → u.dataOperand = t.dout →
      ∃ v, exec .cfbd u = .next v ∧ v.errcode = 0 ∧ v.dout = s.dataOperand

/-! ### Host scripts -/

/-- A script of accesses inside their spaces and resets that issues no command runs safely, however long
it is (R55, R56, R230), and so does the idling after it, which is the model's choice (log entry 3). -/
def Obligations.PlainScriptsAreSafe : Prop :=
  ∀ (s : State) (k : Nat),
    (∀ a ∈ s.script, a.wf s.params = true ∧ ∀ op, a ≠ .write .reg 0 op) → SafeFor k s

/-- R77: `LDKEY` with `n <= 255` bytes, run to its end, puts the first `min(n, 16)` of them in `KEYBUF`
and `n` in `KEY_LEN`, leaves the other bytes of `KEYBUF` and changes nothing else. So a key of a wrong
length reaches the core as R36 says. -/
def Obligations.LdkeyLineLoadsTheKey : Prop :=
  ∀ (s : State) (key : List Byte) (rest : List HostAction), key.length ≤ 255 →
    s.script = expandLine s (.ldkey key) ++ rest →
      ∃ t : State, Host.Core.run Sys2Proof.core (min key.length 16 + 1) s = .next t ∧
        t.keyLen.toNat = key.length ∧
        (∀ i : Fin 16, t.keybuf[i] = if h : i.val < key.length then key[i.val] else s.keybuf[i]) ∧
        t = { s with script := rest, keybuf := t.keybuf, keyLen := t.keyLen }

/-- R77: `LDDIN` with at most `DIN_CAP` bytes, run to its end, makes them the data operand of the next
command. -/
def Obligations.LddinLineLoadsTheData : Prop :=
  ∀ (s : State) (data : List Byte) (rest : List HostAction), s.params.wf = true →
    data.length ≤ s.params.dinCap → s.script = expandLine s (.lddin data) ++ rest →
      ∃ t : State, Host.Core.run Sys2Proof.core (data.length + 4) s = .next t ∧ t.script = rest ∧
        t.dinLen.toNat = data.length ∧ t.dataOperand = data ∧ t.keybuf = s.keybuf ∧
        t.keyLen = s.keyLen ∧ t.rk = s.rk
end

