-- ==== Sys2Proof/Laws/Cipher.lean ====
section
/-! SUPPORT. The small lemmas of the datapath's definitions: the matrix view, the words of the key
schedule, exclusive-or, the block loop and the segment loops. -/

namespace Sys2Proof.Machine

/-! ### The matrix view (R12) -/

@[simp] theorem cell_ofMatrix (f : Fin 4 → Fin 4 → Byte) (r c : Fin 4) :
    cell (ofMatrix f) r c = f r c := by
  have hr := r.isLt
  have hc := c.isLt
  simp only [cell, ofMatrix, Vector.getElem_ofFn]
  refine congrArg₂ f (Fin.ext ?_) (Fin.ext ?_) <;> dsimp only <;> omega

/-- Two blocks with equal cells are equal. -/
theorem block_ext {a b : Block} (h : ∀ r c, cell a r c = cell b r c) : a = b := by
  refine Vector.ext fun i hi => ?_
  have := h ⟨i % 4, by omega⟩ ⟨i / 4, by omega⟩
  have e : i % 4 + 4 * (i / 4) = i := by omega
  simpa [cell, e] using this

@[simp] theorem ofMatrix_cell (b : Block) : ofMatrix (cell b) = b :=
  block_ext fun r c => cell_ofMatrix _ r c

@[simp] theorem column_get (b : Block) (c r : Fin 4) : (column b c)[r] = cell b r c := by
  simp [column]

@[simp] theorem column_ofMatrix (f : Fin 4 → Fin 4 → Byte) (c : Fin 4) :
    column (ofMatrix f) c = Vector.ofFn fun r => f r c := by
  simp [column]

/-! ### The block loop and unpadding (R161, R162) -/

/-- The block loop gives 16 bytes for every whole block. -/
@[simp] theorem length_mapBlocks (f : Block → Block) (q : List Byte) :
    (mapBlocks f q).length = 16 * (q.length / 16) := by
  unfold mapBlocks
  generalize q.length / 16 = n
  induction n with
  | zero => rfl
  | succ n ih =>
    rw [List.range_succ, List.flatMap_append, List.length_append, ih]
    simp; omega

/-- `Unpad` has one way to fail. -/
theorem unpad_error {q : List Byte} {e : ErrorKind} (h : unpad q = .error e) :
    e = .invalidPadding := by
  simp only [unpad] at h
  split at h
  · cases h; rfl
  · split at h <;> cases h; rfl

/-- `Unpad` only takes bytes away at the end. -/
theorem unpad_prefix {q r : List Byte} (h : unpad q = .ok r) : r <+: q := by
  simp only [unpad] at h
  split at h
  · cases h
  · split at h <;> cases h
    exact List.take_prefix _ _

/-! ### The words of the schedule (R114) -/

/-- A word of the schedule is the word of that index. -/
@[simp] theorem expandBlock_get (k : Block) (i : Nat) (h : i < 44) :
    (expandBlock k)[i] = keyWord k i := by
  simp [expandBlock]

/-- The recurrence of R114, one step. -/
theorem keyWord_add_four (k : Block) (i : Nat) :
    keyWord k (i + 4) = xorWord (keyWord k i) (keyMix (i + 4) (keyWord k (i + 3))) := by
  rw [keyWord]

end Sys2Proof.Machine
end

