-- ==== Sys2Proof/Laws/State.lean ====
section
/-! SUPPORT. One lemma per field per update of State, true by unfolding the update, so that no later
proof unfolds a record update. -/

namespace Sys2Proof.Machine

variable (s : State)

section beginCommand

@[simp] theorem beginCommand_keybuf : (s.beginCommand).keybuf = s.keybuf := rfl
@[simp] theorem beginCommand_keyLen : (s.beginCommand).keyLen = s.keyLen := rfl
@[simp] theorem beginCommand_ivbuf : (s.beginCommand).ivbuf = s.ivbuf := rfl
@[simp] theorem beginCommand_ivLen : (s.beginCommand).ivLen = s.ivLen := rfl
@[simp] theorem beginCommand_ivPresent : (s.beginCommand).ivPresent = s.ivPresent := rfl
@[simp] theorem beginCommand_din : (s.beginCommand).din = s.din := rfl
@[simp] theorem beginCommand_dinLen : (s.beginCommand).dinLen = s.dinLen := rfl
@[simp] theorem beginCommand_dout : (s.beginCommand).dout = s.dout := rfl
@[simp] theorem beginCommand_doutLen : (s.beginCommand).doutLen = s.doutLen := rfl
@[simp] theorem beginCommand_ivout : (s.beginCommand).ivout = s.ivout := rfl
@[simp] theorem beginCommand_rk : (s.beginCommand).rk = s.rk := rfl
@[simp] theorem beginCommand_ksValid : (s.beginCommand).ksValid = s.ksValid := rfl
@[simp] theorem beginCommand_errcode : (s.beginCommand).errcode = 0 := rfl
@[simp] theorem beginCommand_done : (s.beginCommand).done = s.done := rfl
@[simp] theorem beginCommand_work : (s.beginCommand).work = s.work := rfl
@[simp] theorem beginCommand_params : (s.beginCommand).params = s.params := rfl
@[simp] theorem beginCommand_script : (s.beginCommand).script = s.script := rfl
@[simp] theorem beginCommand_answers : (s.beginCommand).answers = s.answers := rfl
@[simp] theorem beginCommand_draws : (s.beginCommand).draws = s.draws := rfl
@[simp] theorem beginCommand_free : (s.beginCommand).free = s.free := rfl
@[simp] theorem beginCommand_resetIdx : (s.beginCommand).resetIdx = s.resetIdx := rfl

end beginCommand

section endCommand

@[simp] theorem endCommand_keybuf : (s.endCommand).keybuf = s.keybuf := rfl
@[simp] theorem endCommand_keyLen : (s.endCommand).keyLen = s.keyLen := rfl
@[simp] theorem endCommand_ivbuf : (s.endCommand).ivbuf = s.ivbuf := rfl
@[simp] theorem endCommand_ivLen : (s.endCommand).ivLen = s.ivLen := rfl
@[simp] theorem endCommand_ivPresent : (s.endCommand).ivPresent = s.ivPresent := rfl
@[simp] theorem endCommand_din : (s.endCommand).din = s.din := rfl
@[simp] theorem endCommand_dinLen : (s.endCommand).dinLen = s.dinLen := rfl
@[simp] theorem endCommand_dout : (s.endCommand).dout = s.dout := rfl
@[simp] theorem endCommand_doutLen : (s.endCommand).doutLen = s.doutLen := rfl
@[simp] theorem endCommand_ivout : (s.endCommand).ivout = s.ivout := rfl
@[simp] theorem endCommand_rk : (s.endCommand).rk = s.rk := rfl
@[simp] theorem endCommand_ksValid : (s.endCommand).ksValid = s.ksValid := rfl
@[simp] theorem endCommand_errcode : (s.endCommand).errcode = s.errcode := rfl
@[simp] theorem endCommand_done : (s.endCommand).done = true := rfl
@[simp] theorem endCommand_work : (s.endCommand).work = Config.unspecifiedWork s.free := rfl
@[simp] theorem endCommand_params : (s.endCommand).params = s.params := rfl
@[simp] theorem endCommand_script : (s.endCommand).script = s.script := rfl
@[simp] theorem endCommand_answers : (s.endCommand).answers = s.answers := rfl
@[simp] theorem endCommand_draws : (s.endCommand).draws = s.draws := rfl
@[simp] theorem endCommand_free : (s.endCommand).free = s.free + 1 := rfl
@[simp] theorem endCommand_resetIdx : (s.endCommand).resetIdx = s.resetIdx := rfl

end endCommand

section deliver

@[simp] theorem deliver_keybuf (r : List Byte) : (s.deliver r).keybuf = s.keybuf := rfl
@[simp] theorem deliver_keyLen (r : List Byte) : (s.deliver r).keyLen = s.keyLen := rfl
@[simp] theorem deliver_ivbuf (r : List Byte) : (s.deliver r).ivbuf = s.ivbuf := rfl
@[simp] theorem deliver_ivLen (r : List Byte) : (s.deliver r).ivLen = s.ivLen := rfl
@[simp] theorem deliver_ivPresent (r : List Byte) : (s.deliver r).ivPresent = s.ivPresent := rfl
@[simp] theorem deliver_din (r : List Byte) : (s.deliver r).din = s.din := rfl
@[simp] theorem deliver_dinLen (r : List Byte) : (s.deliver r).dinLen = s.dinLen := rfl
@[simp] theorem deliver_dout (r : List Byte) : (s.deliver r).dout = r := rfl
@[simp] theorem deliver_doutLen (r : List Byte) : (s.deliver r).doutLen = BitVec.ofNat 32 r.length := rfl
@[simp] theorem deliver_ivout (r : List Byte) : (s.deliver r).ivout = s.ivout := rfl
@[simp] theorem deliver_rk (r : List Byte) : (s.deliver r).rk = s.rk := rfl
@[simp] theorem deliver_ksValid (r : List Byte) : (s.deliver r).ksValid = s.ksValid := rfl
@[simp] theorem deliver_errcode (r : List Byte) : (s.deliver r).errcode = s.errcode := rfl
@[simp] theorem deliver_done (r : List Byte) : (s.deliver r).done = s.done := rfl
@[simp] theorem deliver_work (r : List Byte) : (s.deliver r).work = s.work := rfl
@[simp] theorem deliver_params (r : List Byte) : (s.deliver r).params = s.params := rfl
@[simp] theorem deliver_script (r : List Byte) : (s.deliver r).script = s.script := rfl
@[simp] theorem deliver_answers (r : List Byte) : (s.deliver r).answers = s.answers := rfl
@[simp] theorem deliver_draws (r : List Byte) : (s.deliver r).draws = s.draws := rfl
@[simp] theorem deliver_free (r : List Byte) : (s.deliver r).free = s.free := rfl
@[simp] theorem deliver_resetIdx (r : List Byte) : (s.deliver r).resetIdx = s.resetIdx := rfl

end deliver

section loadSchedule

@[simp] theorem loadSchedule_keybuf : (s.loadSchedule).keybuf = s.keybuf := by dsimp only [State.loadSchedule, State.keyOperand]
@[simp] theorem loadSchedule_keyLen : (s.loadSchedule).keyLen = s.keyLen := by dsimp only [State.loadSchedule, State.keyOperand]
@[simp] theorem loadSchedule_ivbuf : (s.loadSchedule).ivbuf = s.ivbuf := by dsimp only [State.loadSchedule, State.keyOperand]
@[simp] theorem loadSchedule_ivLen : (s.loadSchedule).ivLen = s.ivLen := by dsimp only [State.loadSchedule, State.keyOperand]
@[simp] theorem loadSchedule_ivPresent : (s.loadSchedule).ivPresent = s.ivPresent := by dsimp only [State.loadSchedule, State.keyOperand]
@[simp] theorem loadSchedule_din : (s.loadSchedule).din = s.din := by dsimp only [State.loadSchedule, State.keyOperand]
@[simp] theorem loadSchedule_dinLen : (s.loadSchedule).dinLen = s.dinLen := by dsimp only [State.loadSchedule, State.keyOperand]
@[simp] theorem loadSchedule_dout : (s.loadSchedule).dout = s.dout := by dsimp only [State.loadSchedule, State.keyOperand]
@[simp] theorem loadSchedule_doutLen : (s.loadSchedule).doutLen = s.doutLen := by dsimp only [State.loadSchedule, State.keyOperand]
@[simp] theorem loadSchedule_ivout : (s.loadSchedule).ivout = s.ivout := by dsimp only [State.loadSchedule, State.keyOperand]
@[simp] theorem loadSchedule_rk : (s.loadSchedule).rk = expandBlock s.keybuf := by dsimp only [State.loadSchedule, State.keyOperand]
@[simp] theorem loadSchedule_ksValid : (s.loadSchedule).ksValid = true := by dsimp only [State.loadSchedule, State.keyOperand]
@[simp] theorem loadSchedule_errcode : (s.loadSchedule).errcode = s.errcode := by dsimp only [State.loadSchedule, State.keyOperand]
@[simp] theorem loadSchedule_done : (s.loadSchedule).done = s.done := by dsimp only [State.loadSchedule, State.keyOperand]
@[simp] theorem loadSchedule_work : (s.loadSchedule).work = s.work := by dsimp only [State.loadSchedule, State.keyOperand]
@[simp] theorem loadSchedule_params : (s.loadSchedule).params = s.params := by dsimp only [State.loadSchedule, State.keyOperand]
@[simp] theorem loadSchedule_script : (s.loadSchedule).script = s.script := by dsimp only [State.loadSchedule, State.keyOperand]
@[simp] theorem loadSchedule_answers : (s.loadSchedule).answers = s.answers := by dsimp only [State.loadSchedule, State.keyOperand]
@[simp] theorem loadSchedule_draws : (s.loadSchedule).draws = s.draws := by dsimp only [State.loadSchedule, State.keyOperand]
@[simp] theorem loadSchedule_free : (s.loadSchedule).free = s.free := by dsimp only [State.loadSchedule, State.keyOperand]
@[simp] theorem loadSchedule_resetIdx : (s.loadSchedule).resetIdx = s.resetIdx := by dsimp only [State.loadSchedule, State.keyOperand]

end loadSchedule

section setIvout

@[simp] theorem setIvout_keybuf (iv : Block) : (s.setIvout iv).keybuf = s.keybuf := rfl
@[simp] theorem setIvout_keyLen (iv : Block) : (s.setIvout iv).keyLen = s.keyLen := rfl
@[simp] theorem setIvout_ivbuf (iv : Block) : (s.setIvout iv).ivbuf = s.ivbuf := rfl
@[simp] theorem setIvout_ivLen (iv : Block) : (s.setIvout iv).ivLen = s.ivLen := rfl
@[simp] theorem setIvout_ivPresent (iv : Block) : (s.setIvout iv).ivPresent = s.ivPresent := rfl
@[simp] theorem setIvout_din (iv : Block) : (s.setIvout iv).din = s.din := rfl
@[simp] theorem setIvout_dinLen (iv : Block) : (s.setIvout iv).dinLen = s.dinLen := rfl
@[simp] theorem setIvout_dout (iv : Block) : (s.setIvout iv).dout = s.dout := rfl
@[simp] theorem setIvout_doutLen (iv : Block) : (s.setIvout iv).doutLen = s.doutLen := rfl
@[simp] theorem setIvout_ivout (iv : Block) : (s.setIvout iv).ivout = iv := rfl
@[simp] theorem setIvout_rk (iv : Block) : (s.setIvout iv).rk = s.rk := rfl
@[simp] theorem setIvout_ksValid (iv : Block) : (s.setIvout iv).ksValid = s.ksValid := rfl
@[simp] theorem setIvout_errcode (iv : Block) : (s.setIvout iv).errcode = s.errcode := rfl
@[simp] theorem setIvout_done (iv : Block) : (s.setIvout iv).done = s.done := rfl
@[simp] theorem setIvout_work (iv : Block) : (s.setIvout iv).work = s.work := rfl
@[simp] theorem setIvout_params (iv : Block) : (s.setIvout iv).params = s.params := rfl
@[simp] theorem setIvout_script (iv : Block) : (s.setIvout iv).script = s.script := rfl
@[simp] theorem setIvout_answers (iv : Block) : (s.setIvout iv).answers = s.answers := rfl
@[simp] theorem setIvout_draws (iv : Block) : (s.setIvout iv).draws = s.draws := rfl
@[simp] theorem setIvout_free (iv : Block) : (s.setIvout iv).free = s.free := rfl
@[simp] theorem setIvout_resetIdx (iv : Block) : (s.setIvout iv).resetIdx = s.resetIdx := rfl

end setIvout

section countDraw

@[simp] theorem countDraw_keybuf : s.countDraw.keybuf = s.keybuf := by unfold State.countDraw; split <;> rfl
@[simp] theorem countDraw_keyLen : s.countDraw.keyLen = s.keyLen := by unfold State.countDraw; split <;> rfl
@[simp] theorem countDraw_ivbuf : s.countDraw.ivbuf = s.ivbuf := by unfold State.countDraw; split <;> rfl
@[simp] theorem countDraw_ivLen : s.countDraw.ivLen = s.ivLen := by unfold State.countDraw; split <;> rfl
@[simp] theorem countDraw_ivPresent : s.countDraw.ivPresent = s.ivPresent := by unfold State.countDraw; split <;> rfl
@[simp] theorem countDraw_din : s.countDraw.din = s.din := by unfold State.countDraw; split <;> rfl
@[simp] theorem countDraw_dinLen : s.countDraw.dinLen = s.dinLen := by unfold State.countDraw; split <;> rfl
@[simp] theorem countDraw_dout : s.countDraw.dout = s.dout := by unfold State.countDraw; split <;> rfl
@[simp] theorem countDraw_doutLen : s.countDraw.doutLen = s.doutLen := by unfold State.countDraw; split <;> rfl
@[simp] theorem countDraw_ivout : s.countDraw.ivout = s.ivout := by unfold State.countDraw; split <;> rfl
@[simp] theorem countDraw_rk : s.countDraw.rk = s.rk := by unfold State.countDraw; split <;> rfl
@[simp] theorem countDraw_ksValid : s.countDraw.ksValid = s.ksValid := by unfold State.countDraw; split <;> rfl
@[simp] theorem countDraw_errcode : s.countDraw.errcode = s.errcode := by unfold State.countDraw; split <;> rfl
@[simp] theorem countDraw_done : s.countDraw.done = s.done := by unfold State.countDraw; split <;> rfl
@[simp] theorem countDraw_work : s.countDraw.work = s.work := by unfold State.countDraw; split <;> rfl
@[simp] theorem countDraw_params : s.countDraw.params = s.params := by unfold State.countDraw; split <;> rfl
@[simp] theorem countDraw_script : s.countDraw.script = s.script := by unfold State.countDraw; split <;> rfl
@[simp] theorem countDraw_answers : s.countDraw.answers = s.answers := by unfold State.countDraw; split <;> rfl
@[simp] theorem countDraw_draws : s.countDraw.draws = if s.ivPresent then s.draws else s.draws + 1 := by
  unfold State.countDraw; split <;> simp_all
@[simp] theorem countDraw_free : s.countDraw.free = s.free := by unfold State.countDraw; split <;> rfl
@[simp] theorem countDraw_resetIdx : s.countDraw.resetIdx = s.resetIdx := by unfold State.countDraw; split <;> rfl

end countDraw

section raiseError

variable (i : Instr) (e : ErrorKind)

@[simp] theorem raiseError_keybuf : (s.raiseError i e).keybuf = s.keybuf := by cases i <;> rfl
@[simp] theorem raiseError_keyLen : (s.raiseError i e).keyLen = s.keyLen := by cases i <;> rfl
@[simp] theorem raiseError_ivbuf : (s.raiseError i e).ivbuf = s.ivbuf := by cases i <;> rfl
@[simp] theorem raiseError_ivLen : (s.raiseError i e).ivLen = s.ivLen := by cases i <;> rfl
@[simp] theorem raiseError_ivPresent : (s.raiseError i e).ivPresent = s.ivPresent := by cases i <;> rfl
@[simp] theorem raiseError_din : (s.raiseError i e).din = s.din := by cases i <;> rfl
@[simp] theorem raiseError_dinLen : (s.raiseError i e).dinLen = s.dinLen := by cases i <;> rfl
@[simp] theorem raiseError_dout : (s.raiseError i e).dout = if isDataCommand i then [] else s.dout := by cases i <;> rfl
@[simp] theorem raiseError_doutLen : (s.raiseError i e).doutLen = if isDataCommand i then 0 else s.doutLen := by cases i <;> rfl
@[simp] theorem raiseError_ivout : (s.raiseError i e).ivout = s.ivout := by cases i <;> rfl
@[simp] theorem raiseError_rk : (s.raiseError i e).rk = s.rk := by cases i <;> rfl
@[simp] theorem raiseError_ksValid : (s.raiseError i e).ksValid = s.ksValid := by cases i <;> rfl
@[simp] theorem raiseError_errcode : (s.raiseError i e).errcode = errorCode e := by cases i <;> rfl
@[simp] theorem raiseError_done : (s.raiseError i e).done = true := by cases i <;> rfl
@[simp] theorem raiseError_work : (s.raiseError i e).work = Config.unspecifiedWork s.free := by cases i <;> rfl
@[simp] theorem raiseError_params : (s.raiseError i e).params = s.params := by cases i <;> rfl
@[simp] theorem raiseError_script : (s.raiseError i e).script = s.script := by cases i <;> rfl
@[simp] theorem raiseError_answers : (s.raiseError i e).answers = s.answers := by cases i <;> rfl
@[simp] theorem raiseError_draws : (s.raiseError i e).draws = s.draws := by cases i <;> rfl
@[simp] theorem raiseError_free : (s.raiseError i e).free = s.free + 1 := by cases i <;> rfl
@[simp] theorem raiseError_resetIdx : (s.raiseError i e).resetIdx = s.resetIdx := by cases i <;> rfl

end raiseError

section applyReset

@[simp] theorem applyReset_keybuf : s.applyReset.keybuf = Config.resetBlock s.free .keybuf := rfl
@[simp] theorem applyReset_keyLen : s.applyReset.keyLen = 0 := rfl
@[simp] theorem applyReset_ivbuf : s.applyReset.ivbuf = Config.resetBlock s.free .ivbuf := rfl
@[simp] theorem applyReset_ivLen : s.applyReset.ivLen = 0 := rfl
@[simp] theorem applyReset_ivPresent : s.applyReset.ivPresent = false := rfl
@[simp] theorem applyReset_din : s.applyReset.din = [] := rfl
@[simp] theorem applyReset_dinLen : s.applyReset.dinLen = 0 := rfl
@[simp] theorem applyReset_dout : s.applyReset.dout = [] := rfl
@[simp] theorem applyReset_doutLen : s.applyReset.doutLen = 0 := rfl
@[simp] theorem applyReset_ivout : s.applyReset.ivout = Config.resetBlock s.free .ivout := rfl
@[simp] theorem applyReset_rk : s.applyReset.rk = Config.resetSchedule s.free := rfl
@[simp] theorem applyReset_ksValid : s.applyReset.ksValid = false := rfl
@[simp] theorem applyReset_errcode : s.applyReset.errcode = 0 := rfl
@[simp] theorem applyReset_done : s.applyReset.done = false := rfl
@[simp] theorem applyReset_work : s.applyReset.work = Config.unspecifiedWork s.free := rfl
@[simp] theorem applyReset_params : s.applyReset.params = s.params := rfl
@[simp] theorem applyReset_script : s.applyReset.script = s.script := rfl
@[simp] theorem applyReset_answers : s.applyReset.answers = s.answers := rfl
@[simp] theorem applyReset_draws : s.applyReset.draws = s.draws := rfl
@[simp] theorem applyReset_free : s.applyReset.free = s.free + 1 := rfl
@[simp] theorem applyReset_resetIdx : s.applyReset.resetIdx = s.free := rfl

end applyReset

/-! The operands of a command are the same before and after it begins and loads the schedule. -/

/-- The data operand is a function of `DIN`, `DIN_LEN` and what the last reset left. -/
theorem dataOperand_congr {s t : State} (hd : t.din = s.din) (hl : t.dinLen = s.dinLen)
    (hr : t.resetIdx = s.resetIdx) : t.dataOperand = s.dataOperand := by
  simp [State.dataOperand, State.memRead, State.bufferByte, State.dinByte, State.dinUnwritten, hd, hl,
    hr]

@[simp] theorem beginCommand_dataOperand (s : State) :
    s.beginCommand.dataOperand = s.dataOperand := dataOperand_congr (by simp) (by simp) (by simp)

@[simp] theorem loadSchedule_dataOperand (s : State) :
    s.loadSchedule.dataOperand = s.dataOperand := dataOperand_congr (by simp) (by simp) (by simp)

@[simp] theorem beginCommand_encryptIv (s : State) : s.beginCommand.encryptIv = s.encryptIv := rfl

@[simp] theorem loadSchedule_encryptIv (s : State) : s.loadSchedule.encryptIv = s.encryptIv := by
  simp [State.encryptIv, State.ivOperand]

end Sys2Proof.Machine
end

