-- ==== Sys2Proof/Laws/Errors.lean ====
section
/-! SUPPORT. The length checks and the choice of the reported error (60_exceptions.md R207): what
`lengthError` can answer. -/

namespace Sys2Proof.Machine

variable {s : State} {i : Instr} {e : ErrorKind}

@[simp] theorem failingChecks_beginCommand (s : State) (i : Instr) :
    s.beginCommand.failingChecks i = s.failingChecks i := by
  cases i <;> rfl

@[simp] theorem lengthError_beginCommand (s : State) (i : Instr) :
    s.beginCommand.lengthError i = s.lengthError i := by
  simp [State.lengthError]

/-- Nothing is reported exactly when no check fails. -/
theorem pickError_eq_none {order : ErrOrder} {pick : Nat} {l : List ErrorKind} :
    pickError order pick l = none ↔ l = [] := by
  cases l <;> cases order <;> simp [pickError]

/-- What is reported is one of the failing checks. -/
theorem pickError_mem {order : ErrOrder} {pick : Nat} {l : List ErrorKind}
    (h : pickError order pick l = some e) : e ∈ l := by
  cases l with
  | nil => simp [pickError] at h
  | cons a rest =>
    cases order with
    | fixed => simp [pickError] at h; simp [h]
    | any =>
      have hlt : pick % (rest.length + 1) < (a :: rest).length := by
        simpa using Nat.mod_lt pick (Nat.succ_pos _)
      simp only [pickError, Option.some.injEq, List.getD_eq_getElem _ _ hlt] at h
      exact h ▸ List.getElem_mem hlt

/-- One failing check is reported whatever the order. -/
@[simp] theorem pickError_singleton (order : ErrOrder) (pick : Nat) :
    pickError order pick [e] = some e := by
  cases order <;> simp [pickError, Nat.mod_one]

theorem lengthError_eq_none : s.lengthError i = none ↔ s.failingChecks i = [] := pickError_eq_none

theorem lengthError_mem (h : s.lengthError i = some e) : e ∈ s.failingChecks i := pickError_mem h

/-- Under `ERR_ORDER = fixed` the first failing check is reported. -/
theorem lengthError_fixed (h : s.params.errOrder = .fixed) :
    s.lengthError i = (s.failingChecks i).head? := by
  unfold State.lengthError
  rw [h]
  cases s.failingChecks i <;> rfl

end Sys2Proof.Machine
end

