-- ==== Sys2Proof/Laws/Commands.lean ====
section
/-! SUPPORT. What a command and a step can do, said once: the inversion lemmas of the shared shapes of
the commands, of the host's accesses and of `step`. -/

namespace Sys2Proof.Machine

variable {s t : State}

/-- Everything ENCB and DECB can do when they answer. -/
theorem blockCommand_cases {i : Instr} {f : Schedule → Block → Block}
    (h : blockCommand i f s = .next t) :
    s.ksValid = true ∧
    ((∃ e ∈ s.failingChecks i, s.lengthError i = some e ∧ t = s.beginCommand.raiseError i e) ∨
     (s.failingChecks i = [] ∧
      t = (s.beginCommand.deliver (f s.rk s.blockOperand).toList).endCommand)) := by
  unfold blockCommand at h
  split at h
  case isFalse => cases h
  case isTrue hk =>
    refine ⟨hk, ?_⟩
    simp only [lengthError_beginCommand] at h
    split at h
    next e he => cases h; exact .inl ⟨e, lengthError_mem he, he, rfl⟩
    next he => cases h; exact .inr ⟨lengthError_eq_none.1 he, rfl⟩

/-- Everything a mode command can do when it answers. -/
theorem modeCommand_cases {i : Instr} {work : State → State}
    (h : modeCommand i work s = .next t) :
    s.dinLen.toNat ≤ s.params.dinCap ∧
    ((∃ e ∈ s.failingChecks i, s.lengthError i = some e ∧ t = s.beginCommand.raiseError i e) ∨
     (s.failingChecks i = [] ∧ t = work s.beginCommand.loadSchedule)) := by
  unfold modeCommand at h
  split at h
  case isFalse => cases h
  case isTrue hk =>
    refine ⟨by simpa [State.dinFits] using hk, ?_⟩
    simp only [lengthError_beginCommand] at h
    split at h
    next e he => cases h; exact .inl ⟨e, lengthError_mem he, he, rfl⟩
    next he => cases h; exact .inr ⟨lengthError_eq_none.1 he, rfl⟩

/-- Everything KEXP can do. -/
theorem execKexp_cases (h : execKexp s = .next t) :
    (∃ e ∈ s.failingChecks .kexp, s.lengthError .kexp = some e ∧
      t = s.beginCommand.raiseError .kexp e) ∨
    (s.failingChecks .kexp = [] ∧ t = s.beginCommand.loadSchedule.endCommand) := by
  simp only [execKexp, lengthError_beginCommand] at h
  split at h
  next e he => cases h; exact .inl ⟨e, lengthError_mem he, he, rfl⟩
  next he => cases h; exact .inr ⟨lengthError_eq_none.1 he, rfl⟩

/-- Everything a command can do when it answers: enter the error of a failing length check, or do its
work with every length check passed. -/
theorem exec_cases {i : Instr} (h : exec i s = .next t) :
    (∃ e ∈ s.failingChecks i, s.lengthError i = some e ∧ t = s.beginCommand.raiseError i e) ∨
    (s.failingChecks i = [] ∧
      ((i = .kexp ∧ t = s.beginCommand.loadSchedule.endCommand) ∨
       (i = .encb ∧ s.ksValid = true ∧
          t = (s.beginCommand.deliver (encrypt s.rk s.blockOperand).toList).endCommand) ∨
       (i = .decb ∧ s.ksValid = true ∧
          t = (s.beginCommand.deliver (decrypt s.rk s.blockOperand).toList).endCommand) ∨
       (i = .ecbe ∧ s.dinLen.toNat ≤ s.params.dinCap ∧ t = ecbeWork s.beginCommand.loadSchedule) ∨
       (i = .ecbd ∧ s.dinLen.toNat ≤ s.params.dinCap ∧ t = ecbdWork s.beginCommand.loadSchedule) ∨
       (i = .cfbe ∧ s.dinLen.toNat ≤ s.params.dinCap ∧ t = cfbeWork s.beginCommand.loadSchedule) ∨
       (i = .cfbd ∧ s.dinLen.toNat ≤ s.params.dinCap ∧
          t = cfbdWork s.beginCommand.loadSchedule))) := by
  cases i
  case kexp => rcases execKexp_cases h with h | ⟨a, b⟩ <;> simp_all
  case encb => obtain ⟨_, h⟩ := blockCommand_cases h; rcases h with h | ⟨a, b⟩ <;> simp_all
  case decb => obtain ⟨_, h⟩ := blockCommand_cases h; rcases h with h | ⟨a, b⟩ <;> simp_all
  all_goals obtain ⟨_, h⟩ := modeCommand_cases h; rcases h with h | ⟨a, b⟩ <;> simp_all

/-- Everything ECBD can do after its length checks. -/
theorem ecbdWork_cases (s : State) :
    (∃ r, unpad (ecbDecryptWith s.rk s.dataOperand) = .ok r ∧
      ecbdWork s = (s.deliver r).endCommand) ∨
    (unpad (ecbDecryptWith s.rk s.dataOperand) = .error .invalidPadding ∧
      ecbdWork s = s.raiseError .ecbd .invalidPadding) := by
  unfold ecbdWork
  split
  next r hr => exact .inl ⟨r, hr, rfl⟩
  next e he => cases unpad_error he; exact .inr ⟨he, rfl⟩

/-- Everything a host read can do when it is answered (R55). -/
theorem hostRead_cases {sp : Space} {off : Nat} (h : hostRead s sp off = .next t) :
    off < sp.size s.params ∧ t = { s with answers := s.answers ++ [s.readByte sp off] } := by
  unfold hostRead at h
  split at h
  · cases h; exact ⟨‹_›, rfl⟩
  · cases h

/-- Everything a host write other than to `CMD` can do when it is answered (R56). -/
theorem hostWrite_cases {sp : Space} {off : Nat} {v : Byte} (h : hostWrite s sp off v = .next t) :
    off < sp.size s.params ∧ t = s.writeByte sp off v := by
  unfold hostWrite at h
  split at h
  · cases h; exact ⟨‹_›, rfl⟩
  · cases h

/-- A byte issues a command only when it decodes to it and the host may issue it (R72, R73). -/
theorem issued_eq_some {p : Params} {op : Byte} {i : Instr} (h : issued p op = some i) :
    decode op = .ok i ∧ i.wf p = true := by
  unfold issued at h
  split at h
  next j hj =>
    split at h
    · cases h; exact ⟨hj, ‹_›⟩
    · cases h
  · cases h

section withScript

variable (s : State) (rest : List HostAction)

@[simp] theorem withScript_keybuf : (s.withScript rest).keybuf = s.keybuf := rfl
@[simp] theorem withScript_keyLen : (s.withScript rest).keyLen = s.keyLen := rfl
@[simp] theorem withScript_ivbuf : (s.withScript rest).ivbuf = s.ivbuf := rfl
@[simp] theorem withScript_ivLen : (s.withScript rest).ivLen = s.ivLen := rfl
@[simp] theorem withScript_ivPresent : (s.withScript rest).ivPresent = s.ivPresent := rfl
@[simp] theorem withScript_din : (s.withScript rest).din = s.din := rfl
@[simp] theorem withScript_dinLen : (s.withScript rest).dinLen = s.dinLen := rfl
@[simp] theorem withScript_dout : (s.withScript rest).dout = s.dout := rfl
@[simp] theorem withScript_doutLen : (s.withScript rest).doutLen = s.doutLen := rfl
@[simp] theorem withScript_ivout : (s.withScript rest).ivout = s.ivout := rfl
@[simp] theorem withScript_rk : (s.withScript rest).rk = s.rk := rfl
@[simp] theorem withScript_ksValid : (s.withScript rest).ksValid = s.ksValid := rfl
@[simp] theorem withScript_errcode : (s.withScript rest).errcode = s.errcode := rfl
@[simp] theorem withScript_done : (s.withScript rest).done = s.done := rfl
@[simp] theorem withScript_work : (s.withScript rest).work = s.work := rfl
@[simp] theorem withScript_params : (s.withScript rest).params = s.params := rfl
@[simp] theorem withScript_script : (s.withScript rest).script = rest := rfl
@[simp] theorem withScript_answers : (s.withScript rest).answers = s.answers := rfl
@[simp] theorem withScript_draws : (s.withScript rest).draws = s.draws := rfl
@[simp] theorem withScript_free : (s.withScript rest).free = s.free := rfl
@[simp] theorem withScript_resetIdx : (s.withScript rest).resetIdx = s.resetIdx := rfl

end withScript

/-- A write to any address but `CMD` is a plain host write. -/
theorem hostAction_write {sp : Space} {off : Nat} (v : Byte) (h : (sp, off) ≠ (Space.reg, 0)) :
    hostAction s (.write sp off v) = .finished (hostWrite s sp off v) := by
  unfold hostAction
  split
  next heq => cases heq; exact absurd rfl h
  next heq => cases heq; rfl
  all_goals next heq => cases heq

/-- The step with no host action pending. -/
theorem step_nil (h : s.script = []) : step s = .next s := by
  unfold step fetch
  rw [h]

/-- The step whose host action issues the command `i`. -/
theorem step_command {op : Byte} {i : Instr} {rest : List HostAction}
    (h : s.script = .write .reg 0 op :: rest) (hi : issued s.params op = some i) :
    step s = exec i (s.withScript rest) := by
  unfold step fetch
  rw [h]
  simp [hostAction, issueCommand, hi]

/-- The step whose host action writes a byte that issues no command. -/
theorem step_reserved {op : Byte} {rest : List HostAction}
    (h : s.script = .write .reg 0 op :: rest) (hi : issued s.params op = none) :
    step s = .refused (.reservedOpcode op) := by
  unfold step fetch
  rw [h]
  simp [hostAction, issueCommand, hi]

/-- The step of a plain host write. -/
theorem step_write {sp : Space} {off : Nat} {v : Byte} {rest : List HostAction}
    (h : s.script = .write sp off v :: rest) (h0 : (sp, off) ≠ (Space.reg, 0)) :
    step s = hostWrite (s.withScript rest) sp off v := by
  unfold step fetch
  rw [h]
  simp only [hostAction_write v h0]

/-- The step of a host read. -/
theorem step_read {sp : Space} {off : Nat} {rest : List HostAction}
    (h : s.script = .read sp off :: rest) : step s = hostRead (s.withScript rest) sp off := by
  unfold step fetch
  rw [h]
  rfl

/-- The step of an access to no space. -/
theorem step_elsewhere {rest : List HostAction} (h : s.script = .elsewhere :: rest) :
    step s = .refused .unknownSpace := by
  unfold step fetch
  rw [h]
  rfl

/-- The step of a reset. -/
theorem step_reset {rest : List HostAction} (h : s.script = .reset :: rest) :
    step s = .next (s.withScript rest).applyReset := by
  unfold step fetch
  rw [h]
  rfl

/-- Everything a step can do when it answers: idle, run a command the host may issue, answer a write
or a read, or reset. -/
theorem step_cases (h : step s = .next t) :
    (s.script = [] ∧ t = s) ∨
    (∃ op i rest, s.script = .write .reg 0 op :: rest ∧ issued s.params op = some i ∧
      exec i (s.withScript rest) = .next t) ∨
    (∃ sp off v rest, s.script = .write sp off v :: rest ∧ (sp, off) ≠ (Space.reg, 0) ∧
      off < sp.size s.params ∧ t = (s.withScript rest).writeByte sp off v) ∨
    (∃ sp off rest, s.script = .read sp off :: rest ∧ off < sp.size s.params ∧
      t = { s with script := rest, answers := s.answers ++ [s.readByte sp off] }) ∨
    (∃ rest, s.script = .reset :: rest ∧ t = (s.withScript rest).applyReset) := by
  cases hs : s.script with
  | nil =>
    rw [step_nil hs] at h
    cases h
    exact .inl ⟨rfl, rfl⟩
  | cons a rest =>
    refine .inr ?_
    cases a with
    | write sp off v =>
      by_cases h0 : (sp, off) = (Space.reg, 0)
      · cases h0
        cases hi : issued s.params v with
        | none => rw [step_reserved hs hi] at h; cases h
        | some i => rw [step_command hs hi] at h; exact .inl ⟨v, i, rest, rfl, hi, h⟩
      · rw [step_write hs h0] at h
        obtain ⟨hlt, ht⟩ := hostWrite_cases h
        exact .inr (.inl ⟨sp, off, v, rest, rfl, h0, hlt, ht⟩)
    | read sp off =>
      rw [step_read hs] at h
      obtain ⟨hlt, ht⟩ := hostRead_cases h
      refine .inr (.inr (.inl ⟨sp, off, rest, rfl, hlt, ?_⟩))
      rw [ht]
      cases sp <;> rfl
    | elsewhere => rw [step_elsewhere hs] at h; cases h
    | reset =>
      rw [step_reset hs] at h
      cases h
      exact .inr (.inr (.inr ⟨rest, rfl, rfl⟩))

end Sys2Proof.Machine
end

