-- ==== Sys2Proof/Laws/Memory.lean ====
section
/-! SUPPORT. The laws of the sparse buffer `DIN`: a read after a write, and the canonical form kept. -/

namespace Sys2Proof.Machine

@[simp] theorem memory_read_nil (off : Nat) : Memory.read [] off = none := rfl

theorem memory_read_cons (a : Nat) (w : Byte) (m : Memory) (off : Nat) :
    Memory.read ((a, w) :: m) off = if a = off then some w else Memory.read m off := by
  unfold Memory.read
  by_cases h : a = off <;> simp [h]

/-- An offset below every listed one is unwritten. -/
theorem memory_read_below {m : Memory} {off : Nat} (h : ∀ e ∈ m, off < e.1) :
    Memory.read m off = none := by
  unfold Memory.read
  have : m.find? (fun e => e.1 == off) = none := by
    rw [List.find?_eq_none]
    intro e he
    have := h e he
    simp; omega
  simp [this]

/-- What a write leaves in the list: the written pair or an old one. -/
theorem mem_memory_write {m : Memory} {off : Nat} {v : Byte} {e : Host.Cell}
    (h : e ∈ m.write off v) : e = (off, v) ∨ e ∈ m := by
  induction m with
  | nil => simpa [Memory.write] using h
  | cons p rest ih =>
    obtain ⟨a, w⟩ := p
    unfold Memory.write at h
    split at h
    · simpa using h
    · split at h
      · rcases List.mem_cons.1 h with h | h
        · exact .inl h
        · exact .inr (List.mem_cons_of_mem _ h)
      · rcases List.mem_cons.1 h with h | h
        · exact .inr (by simp [h])
        · rcases ih h with h | h
          · exact .inl h
          · exact .inr (List.mem_cons_of_mem _ h)

theorem memory_wf_nil : Memory.wf [] := List.Pairwise.nil

/-- Every write keeps the canonical form. -/
theorem memory_write_wf {m : Memory} (h : m.wf) (off : Nat) (v : Byte) : (m.write off v).wf := by
  induction m with
  | nil => simp [Memory.write, Memory.wf]
  | cons p rest ih =>
    obtain ⟨a, w⟩ := p
    obtain ⟨hlt, hrest⟩ := List.pairwise_cons.1 h
    unfold Memory.write
    split
    · refine List.pairwise_cons.2 ⟨fun e he => ?_, h⟩
      rcases List.mem_cons.1 he with rfl | he
      · assumption
      · have := hlt e he; simp at this ⊢; omega
    · split
      · subst_vars; exact List.pairwise_cons.2 ⟨hlt, hrest⟩
      · refine List.pairwise_cons.2 ⟨fun e he => ?_, ih hrest⟩
        rcases mem_memory_write he with rfl | he
        · simp; omega
        · exact hlt e he

/-- A byte reads as it was last written. -/
theorem memory_read_write_same (m : Memory) (off : Nat) (v : Byte) :
    (m.write off v).read off = some v := by
  induction m with
  | nil => simp [Memory.write, memory_read_cons]
  | cons p rest ih =>
    obtain ⟨a, w⟩ := p
    unfold Memory.write
    split
    · simp [memory_read_cons]
    · split
      · simp [memory_read_cons]
      · next h => simp [memory_read_cons, ih, Ne.symm h]

/-- A write leaves every other byte alone. -/
theorem memory_read_write_other (m : Memory) {off off' : Nat} (v : Byte) (h : off' ≠ off) :
    (m.write off v).read off' = m.read off' := by
  induction m with
  | nil => simp [Memory.write, memory_read_cons, Ne.symm h]
  | cons p rest ih =>
    obtain ⟨a, w⟩ := p
    unfold Memory.write
    split
    · simp [memory_read_cons, Ne.symm h]
    · split
      · next h' => subst h'; simp [memory_read_cons, Ne.symm h]
      · simp [memory_read_cons, ih]

end Sys2Proof.Machine
end

