-- ==== Sys2Proof/Laws/PerInstr.lean ====
section
/-! SUPPORT. Facts about every command as syntax, one lemma per constructor of Instr. -/

namespace Sys2Proof.Laws

/-- Family OpcodeShape: R70, "All assigned opcodes have `op[7:3] = 00000`", and exactly one row of the
opcode table claims the command's byte. -/
def OpcodeShape.Statement (i : Instr) : Prop :=
  (encode i).toNat < 8 ∧ (opcodeTable.filter (·.claims (encode i))).map (·.instr) = [i]

theorem OpcodeShape.kexp : OpcodeShape.Statement .kexp := ⟨by decide, by decide⟩
theorem OpcodeShape.encb : OpcodeShape.Statement .encb := ⟨by decide, by decide⟩
theorem OpcodeShape.decb : OpcodeShape.Statement .decb := ⟨by decide, by decide⟩
theorem OpcodeShape.ecbe : OpcodeShape.Statement .ecbe := ⟨by decide, by decide⟩
theorem OpcodeShape.ecbd : OpcodeShape.Statement .ecbd := ⟨by decide, by decide⟩
theorem OpcodeShape.cfbe : OpcodeShape.Statement .cfbe := ⟨by decide, by decide⟩
theorem OpcodeShape.cfbd : OpcodeShape.Statement .cfbd := ⟨by decide, by decide⟩

end Sys2Proof.Laws
end

