-- ==== Sys2Proof/Machine/ScheduleVectors.lean ====
section
/-! DEFINITION. The schedule vectors of 95_test_vectors.md sections 1 and 3, which R118
(41_key_schedule.md) asks a model to carry as tests of R113 and R114, and what it means that the key
expansion reproduces one. -/

namespace Sys2Proof.Machine

/-- A key and its eleven round keys, each written in hex, byte 0 leftmost (R10). -/
structure ScheduleVector where
  key : Nat
  roundKeys : List Nat
  deriving DecidableEq, Repr

/-- Section 1: the key `K` of D00's known-answer test. -/
def scheduleVectorK : ScheduleVector where
  key := 0x000102030405060708090a0b0c0d0e0f
  roundKeys :=
    [0x000102030405060708090a0b0c0d0e0f,
     0xd6aa74fdd2af72fadaa678f1d6ab76fe,
     0xb692cf0b643dbdf1be9bc5006830b3fe,
     0xb6ff744ed2c2c9bf6c590cbf0469bf41,
     0x47f7f7bc95353e03f96c32bcfd058dfd,
     0x3caaa3e8a99f9deb50f3af57adf622aa,
     0x5e390f7df7a69296a7553dc10aa31f6b,
     0x14f9701ae35fe28c440adf4d4ea9c026,
     0x47438735a41c65b9e016baf4aebf7ad2,
     0x549932d1f08557681093ed9cbe2c974e,
     0x13111d7fe3944a17f307a78b4d2b30c5]

/-- Section 3: the key `K2`. -/
def scheduleVectorK2 : ScheduleVector where
  key := 0x2b7e151628aed2a6abf7158809cf4f3c
  roundKeys :=
    [0x2b7e151628aed2a6abf7158809cf4f3c,
     0xa0fafe1788542cb123a339392a6c7605,
     0xf2c295f27a96b9435935807a7359f67f,
     0x3d80477d4716fe3e1e237e446d7a883b,
     0xef44a541a8525b7fb671253bdb0bad00,
     0xd4d1c6f87c839d87caf2b8bc11f915bc,
     0x6d88a37a110b3efddbf98641ca0093fd,
     0x4e54f70e5f5fc9f384a64fb24ea6dc4f,
     0xead27321b58dbad2312bf5607f8d292f,
     0xac7766f319fadc2128d12941575c006e,
     0xd014f9a8c9ee2589e13f0cc8b6630ca6]

/-- Section 3: the all-zero key. -/
def scheduleVectorZeros : ScheduleVector where
  key := 0x00000000000000000000000000000000
  roundKeys :=
    [0x00000000000000000000000000000000,
     0x62636363626363636263636362636363,
     0x9b9898c9f9fbfbaa9b9898c9f9fbfbaa,
     0x90973450696ccffaf2f457330b0fac99,
     0xee06da7b876a1581759e42b27e91ee2b,
     0x7f2e2b88f8443e098dda7cbbf34b9290,
     0xec614b851425758c99ff09376ab49ba7,
     0x217517873550620bacaf6b3cc61bf09b,
     0x0ef903333ba9613897060a04511dfa9f,
     0xb1d4d8e28a7db9da1d7bb3de4c664941,
     0xb4ef5bcb3e92e21123e951cf6f8f188e]

/-- Section 3: the all-ones key. -/
def scheduleVectorOnes : ScheduleVector where
  key := 0xffffffffffffffffffffffffffffffff
  roundKeys :=
    [0xffffffffffffffffffffffffffffffff,
     0xe8e9e9e917161616e8e9e9e917161616,
     0xadaeae19bab8b80f525151e6454747f0,
     0x090e2277b3b69a78e1e7cb9ea4a08c6e,
     0xe16abd3e52dc2746b33becd8179b60b6,
     0xe5baf3ceb766d488045d385013c658e6,
     0x71d07db3c6b6a93bc2eb916bd12dc98d,
     0xe90d208d2fbb89b6ed5018dd3c7dd150,
     0x96337366b988fad054d8e20d68a5335d,
     0x8bf03f233278c5f366a027fe0e0514a3,
     0xd60a3588e472f07b82d2d7858cd7c326]

/-- The four schedules the spec prints. -/
def scheduleVectors : List ScheduleVector :=
  [scheduleVectorK, scheduleVectorK2, scheduleVectorZeros, scheduleVectorOnes]

/-- The key expansion gives the printed round keys, byte for byte (R118). -/
def ScheduleVector.reproduced (v : ScheduleVector) : Bool :=
  (List.finRange 11).map (roundKey (expandBlock (hexBlock v.key))) == v.roundKeys.map hexBlock

end Sys2Proof.Machine
end

