-- ==== Sys2Proof/Tests/Slice0.lean ====
section
/-! SUPPORT. The model's own tests. `test_...`: expected values come from spec/ (its worked examples
and 95_test_vectors.md). `witness_...`: for each statement of Certificates/Slice0/Obligations.lean with
hypotheses, a state and operands that meet them, at the edges of their ranges. -/

namespace Sys2Proof.Tests

open Sys2Proof.Machine

/-! ### A small core to test on -/

/-- The key of D00's known-answer test, `K` of 95_test_vectors.md. -/
def key1 : Block := hexBlock 0x000102030405060708090a0b0c0d0e0f

/-- `K2` of 95_test_vectors.md. -/
def key2 : Block := hexBlock 0x2b7e151628aed2a6abf7158809cf4f3c

/-- A core with `DIN_CAP = 64`: key and IV `000102..0f` in place, their schedule loaded, no data. -/
def unit64 : State where
  keybuf := key1
  keyLen := 16
  ivbuf := key1
  ivLen := 16
  ivPresent := true
  din := []
  dinLen := 0
  dout := []
  doutLen := 0
  ivout := hexBlock 0
  rk := expandBlock key1
  ksValid := true
  errcode := 0
  done := true
  work := default
  params := ⟨64, true, .fixed⟩
  script := []
  answers := []
  draws := 0
  free := 1
  resetIdx := 0

/-- `unit64` with the bytes of a hex number as the data operand. -/
def fed (n x : Nat) : State :=
  { unit64 with din := (hexBytes n x).mapIdx fun i v => (i, v), dinLen := BitVec.ofNat 32 n }

/-- `unit64` about to see one host action. -/
def facing (a : HostAction) : State := unit64.withScript [a]

/-- Does an outcome go on to a state with a property? -/
def holds (o : Host.Outcome State Fault Refusal) (p : State → Bool) : Bool :=
  match o with
  | .next t => p t
  | .fault _ => false
  | .refused _ => false

theorem exists_next_of_holds {o : Host.Outcome State Fault Refusal} {p : State → Bool}
    (h : holds o p = true) : ∃ t, o = .next t ∧ p t = true := by
  cases o with
  | next t => exact ⟨t, rfl, h⟩
  | fault r => cases h
  | refused r => cases h

/-- Is an outcome this refusal? -/
def refusesAs (o : Host.Outcome State Fault Refusal) (r : Refusal) : Bool :=
  match o with
  | .next _ => false
  | .fault _ => false
  | .refused r' => decide (r' = r)

/-! ### Well-formedness refuses ill-formed terms (R8, R51, R72, R77) -/

theorem test_wf_dinCap_low : Params.wf ⟨15, true, .fixed⟩ = false ∧
    Params.wf ⟨16, true, .fixed⟩ = true := by decide

theorem test_wf_dinCap_high : Params.wf ⟨4294967280, true, .fixed⟩ = false ∧
    Params.wf ⟨4294967279, true, .fixed⟩ = true := by decide

theorem test_wf_component_commands : Instr.wf ⟨64, false, .fixed⟩ .kexp = false ∧
    Instr.wf ⟨64, false, .fixed⟩ .encb = false ∧ Instr.wf ⟨64, false, .fixed⟩ .decb = false ∧
    Instr.wf ⟨64, false, .fixed⟩ .ecbe = true ∧ Instr.wf ⟨64, true, .fixed⟩ .decb = true := by decide

theorem test_wf_write_offset : (HostAction.write .reg 16 0).wf unit64.params = false ∧
    (HostAction.write .din 64 0).wf unit64.params = false ∧
    (HostAction.write .din 63 0).wf unit64.params = true := by decide

theorem test_wf_read_offset : (HostAction.read .rk 176).wf unit64.params = false ∧
    (HostAction.read .dout 80).wf unit64.params = false ∧
    (HostAction.read .dout 79).wf unit64.params = true := by decide

theorem test_wf_elsewhere : HostAction.elsewhere.wf unit64.params = false := by decide

theorem test_wf_key_and_iv_lines :
    (HostLine.ldkey (List.replicate 256 0)).wf unit64.params = false ∧
    (HostLine.ldiv (List.replicate 256 0)).wf unit64.params = false ∧
    (HostLine.ldkey (List.replicate 255 0)).wf unit64.params = true := by decide +kernel

theorem test_wf_data_line :
    (HostLine.lddin (List.replicate 65 0)).wf unit64.params = false ∧
    (HostLine.lddin (List.replicate 64 0)).wf unit64.params = true := by decide +kernel

theorem test_wf_command_line : (HostLine.command .kexp).wf ⟨64, false, .fixed⟩ = false ∧
    (HostLine.action (.read .keybuf 16)).wf unit64.params = false := by decide

/-! ### Decoding: the bytes of R71, bit 7 leftmost -/

theorem test_decode_kexp : decode 0b00000001#8 = .ok .kexp := rfl
theorem test_decode_encb : decode 0b00000010#8 = .ok .encb := rfl
theorem test_decode_decb : decode 0b00000011#8 = .ok .decb := rfl
theorem test_decode_ecbe : decode 0b00000100#8 = .ok .ecbe := rfl
theorem test_decode_ecbd : decode 0b00000101#8 = .ok .ecbd := rfl
theorem test_decode_cfbe : decode 0b00000110#8 = .ok .cfbe := rfl
theorem test_decode_cfbd : decode 0b00000111#8 = .ok .cfbd := rfl

/-- R73: 249 of the 256 values are reserved. -/
theorem test_decode_reserved : decode 0b00000000#8 = .error (.reserved 0) ∧
    decode 0b00001000#8 = .error (.reserved 8) ∧ decode 0b10000001#8 = .error (.reserved 0x81) :=
  ⟨rfl, rfl, rfl⟩

theorem test_reserved_count :
    ((List.range 256).filter fun n => (decodeTableWord 8 n).isNone).length = 249 := by decide +kernel

/-- No two rows of the opcode table claim one byte. -/
theorem test_rows_disjoint : opcodeTable.Pairwise fun r r' =>
    ∀ op : Fin 256, ¬ (r.claims (BitVec.ofFin op) = true ∧ r'.claims (BitVec.ofFin op) = true) := by
  decide +kernel

/-- R232: a KEXP straight after reset raises InvalidKeyLength; U6: an ENCB is refused. -/
theorem test_first_command :
    holds (step (State.reset.withFetchWord 8 1)) (fun t => t.errcode == 1 && t.done) = true ∧
    refusesAs (step (State.reset.withFetchWord 8 2)) .noSchedule = true := by decide

/-! ### Field, S-box, key schedule, stages (95_test_vectors.md sections 2 to 4) -/

theorem test_xtime : [0x57, 0xae, 0x47, 0x8e, 0x80, 0xff, 0x7f].map xtime =
    [0xae, 0x47, 0x8e, 0x07, 0x1b, 0xe5, 0xfe] := by decide

theorem test_gmul : gmul 0x57 0x13 = 0xfe ∧ gmul 0x57 0x83 = 0xc1 ∧ gmul 0x03 0xff = 0x1a ∧
    gmul 0x09 0xff = 0x46 ∧ gmul 0x53 0xca = 0x01 := by decide

theorem test_ginv : [0x00, 0x01, 0x02, 0x03, 0x53, 0xff, 0x80].map ginv =
    [0x00, 0x01, 0x8d, 0xf6, 0xca, 0x1c, 0x83] := by decide +kernel

theorem test_affine : [0x00, 0x01, 0xca, 0x8d, 0xff, 0x1c].map affine =
    [0x63, 0x7c, 0xed, 0x77, 0x9c, 0x16] := by decide

theorem test_sbox : [0x00, 0x10, 0x53, 0x7f, 0x80, 0xc9, 0xff, 0x52].map sbox =
    [0x63, 0xca, 0xed, 0xd2, 0xcd, 0xdd, 0x16, 0x00] := by decide

theorem test_invSbox : [0x00, 0x63, 0x7c, 0xed, 0xff, 0x52, 0x01].map invSbox =
    [0x52, 0x00, 0x01, 0x53, 0x7d, 0x48, 0x09] := by decide

theorem test_word_transformations :
    rotWord (hexWord 0x09cf4f3c) = hexWord 0xcf4f3c09 ∧
    subWord (hexWord 0xcf4f3c09) = hexWord 0x8a84eb01 ∧ rcon 10 = hexWord 0x36000000 := by
  decide +kernel

/-- R118: the schedule of `K`, all eleven round keys (95_test_vectors.md section 1). -/
theorem test_schedule_K : scheduleVectorK.reproduced = true := by decide +kernel

/-- R118: the schedule of `K2` (95_test_vectors.md section 3). -/
theorem test_schedule_K2 : scheduleVectorK2.reproduced = true := by decide +kernel

/-- R118: the schedule of the all-zero key (95_test_vectors.md section 3). -/
theorem test_schedule_zeros : scheduleVectorZeros.reproduced = true := by decide +kernel

/-- R118: the schedule of the all-ones key (95_test_vectors.md section 3). -/
theorem test_schedule_ones : scheduleVectorOnes.reproduced = true := by decide +kernel

theorem test_shiftRows : shiftRows key1 = hexBlock 0x00050a0f04090e03080d02070c01060b ∧
    invShiftRows key1 = hexBlock 0x000d0a0704010e0b0805020f0c090603 := by decide +kernel

theorem test_mixColumns :
    mixColumns (hexBlock 0x6353e08c0960e104cd70b751bacad0e7) =
      hexBlock 0x5f72641557f5bc92f7be3b291db9f91a ∧
    mixColumn (hexWord 0x00010000) = hexWord 0x03020101 ∧
    invMixColumn (hexWord 0x00010000) = hexWord 0x0b0e090d := by decide +kernel

theorem test_subBytes_addRoundKey :
    subBytes key1 = hexBlock 0x637c777bf26b6fc53001672bfed7ab76 ∧
    addRoundKey (hexBlock 0x00112233445566778899aabbccddeeff) key1 =
      hexBlock 0x00102030405060708090a0b0c0d0e0f0 := by decide +kernel

theorem test_unpad :
    unpad (hexBytes 16 0x202122232425262728292a2b2c2d0202) =
      .ok (hexBytes 14 0x202122232425262728292a2b2c2d) ∧
    unpad (hexBytes 16 0x202122232425262728292a2b2c2d2e11) = .error .invalidPadding ∧
    unpad (hexBytes 16 0x202122232425262728292a2b2c030203) = .error .invalidPadding ∧
    unpad (hexBytes 16 0x0f101010101010101010101010101010) = .error .invalidPadding :=
  ⟨rfl, rfl, rfl, rfl⟩

theorem test_pad : pad [] = hexBytes 16 0x10101010101010101010101010101010 ∧
    pad (hexBytes 5 0x68656c6c6f) = hexBytes 16 0x68656c6c6f0b0b0b0b0b0b0b0b0b0b0b ∧
    (pad (hexBytes 16 0)).length = 32 := by decide +kernel

/-! ### The commands (95_test_vectors.md sections 1, 3 to 6), at most two tests each -/

/-- The failing KEXP rows of 95_test_vectors.md section 3: 17, 32 and 0 bytes with no schedule, 15 bytes
with one. -/
theorem test_kexp_bad_length :
    (∀ n ∈ [17, 32, 0], holds (exec .kexp { unit64 with keyLen := n, ksValid := false })
      (fun t => t.readByte .reg 1 == 3 && t.readByte .reg 2 == 1) = true) ∧
    holds (exec .kexp { unit64 with keyLen := 15 })
      (fun t => t.readByte .reg 1 == 7 && t.readByte .reg 2 == 1) = true := by decide

/-- The first KEXP row of 95_test_vectors.md section 3, with its `RDRK 10`. -/
theorem test_kexp : holds (exec .kexp { unit64 with ksValid := false })
    (fun t => t.readByte .reg 1 == 5 && t.readByte .reg 2 == 0 &&
      (List.range 16).map (fun i => t.readByte .rk (160 + i)) ==
        hexBytes 16 0x13111d7fe3944a17f307a78b4d2b30c5) = true := by decide +kernel

theorem test_encb : holds (exec .encb (fed 16 0x00112233445566778899aabbccddeeff))
    (fun t => t.readByte .reg 1 == 5 && t.readByte .reg 12 == 16 &&
      t.dout == hexBytes 16 0x69c4e0d86a7b0430d8cdb78070b4c55a) = true := by decide +kernel

theorem test_encb_bad_length : holds (exec .encb (fed 17 0))
    (fun t => t.readByte .reg 1 == 7 && t.errcode == 3 && t.doutLen == 0) = true := by decide

theorem test_decb : holds (exec .decb (fed 16 0x69c4e0d86a7b0430d8cdb78070b4c55a))
    (fun t => t.readByte .reg 1 == 5 &&
      t.dout == hexBytes 16 0x00112233445566778899aabbccddeeff) = true := by decide +kernel

theorem test_ecbe : holds (exec .ecbe (fed 5 0x68656c6c6f))
    (fun t => t.errcode == 0 && t.dout == hexBytes 16 0x5d8749e2af7531b2bf6661e9e5daf012) = true := by
  decide +kernel

theorem test_ecbd : holds (exec .ecbd (fed 16 0x5d8749e2af7531b2bf6661e9e5daf012))
    (fun t => t.errcode == 0 && t.dout == hexBytes 5 0x68656c6c6f) = true := by decide +kernel

theorem test_ecbd_bad_padding : holds (exec .ecbd (fed 16 0x69c4e0d86a7b0430d8cdb78070b4c55a))
    (fun t => t.readByte .reg 1 == 7 && t.errcode == 5 && t.doutLen == 0) = true := by decide +kernel

theorem test_cfbe : holds
    (exec .cfbe { fed 20 0x6bc1bee22e409f96e93d7e117393172aae2d8a57 with keybuf := key2 })
    (fun t => t.errcode == 0 && t.ivout == key1 &&
      t.dout == hexBytes 20 0x3b3fd92eb72dad20333449f8e83cfb4ac8a64537) = true := by decide +kernel

theorem test_cfbe_drawn_iv : holds (exec .cfbe { unit64 with ivPresent := false })
    (fun t => t.errcode == 0 && t.draws == 1 && t.doutLen == 0) = true := by decide

theorem test_cfbd : holds
    (exec .cfbd { fed 20 0x3b3fd92eb72dad20333449f8e83cfb4ac8a64537 with keybuf := key2 })
    (fun t => t.errcode == 0 &&
      t.dout == hexBytes 20 0x6bc1bee22e409f96e93d7e117393172aae2d8a57) = true := by decide +kernel

theorem test_cfbd_missing_iv : holds (exec .cfbd { unit64 with ivPresent := false, ivLen := 3 })
    (fun t => t.readByte .reg 1 == 7 && t.errcode == 6) = true := by decide

/-- 95_test_vectors.md section 5: two conditions hold, the key comes first. -/
theorem test_check_order : holds (exec .ecbd { fed 15 0 with keyLen := 15 })
    (fun t => t.errcode == 1) = true := by decide

/-- 93_implementation_defined.md U5, U6, U8. -/
theorem test_refusals :
    refusesAs (exec .ecbe { unit64 with dinLen := 65 }) .dataLongerThanBuffer = true ∧
    refusesAs (exec .decb { unit64 with ksValid := false }) .noSchedule = true ∧
    refusesAs (step (facing .elsewhere)) .unknownSpace = true := by decide

/-- R38: `DIN_LEN` is little-endian. -/
theorem test_dinLen_bytes : holds (step (facing (.write .reg 9 0x12)))
    (fun t => t.dinLen == 0x1200 && t.readByte .reg 9 == 0x12) = true := by decide

/-- R77: `SETLEN 15` as 95_test_vectors.md program 2 writes it out. -/
theorem test_setlen : expandLine unit64 (.setlen 15) =
    [.write .reg 8 0x0f, .write .reg 9 0, .write .reg 10 0, .write .reg 11 0] := by decide

/-- R77 puts no limit on `SETLEN`: its fourth byte is `(n div 16777216) mod 256`. -/
theorem test_setlen_any : (HostLine.setlen 4294967296).wf unit64.params = true ∧
    expandLine unit64 (.setlen 4294967297) = expandLine unit64 (.setlen 1) := by decide

theorem test_ldiv : expandLine unit64 (.ldiv [0xaa, 0xbb]) =
    [.write .ivbuf 0 0xaa, .write .ivbuf 1 0xbb, .write .reg 5 2, .write .reg 3 1] := by decide

/-! ### Witnesses: encoding and the step -/

theorem witness_DecodeEncodeAgree : decode 0x01 = .ok .kexp ∧ decode 0x07 = .ok .cfbd := ⟨rfl, rfl⟩

theorem witness_StepRunsTheCommand :
    (facing (.write .reg 0 (encode .kexp))).script = .write .reg 0 (encode .kexp) :: [] ∧
    Instr.kexp.wf (facing (.write .reg 0 (encode .kexp))).params = true ∧
    Instr.cfbd.wf ⟨64, false, .fixed⟩ = true := by decide

theorem witness_ReservedBytesAreRefused :
    (facing (.write .reg 0 0)).script = .write .reg 0 0 :: [] ∧ (0 : Byte).toNat = 0 ∧
    (facing (.write .reg 0 8)).script = .write .reg 0 8 :: [] ∧ 8 ≤ (8 : Byte).toNat ∧
    8 ≤ (0xff : Byte).toNat := by decide

theorem witness_ReservedBytesAreRefused_components :
    let s := { facing (.write .reg 0 3) with params := ⟨64, false, .fixed⟩ }
    s.script = .write .reg 0 3 :: [] ∧ s.params.hostComponentCmds = false ∧ (3 : Byte).toNat ≤ 3 := by
  decide

theorem witness_ResetClearsTheControlFields :
    { facing .reset with errcode := 6, dinLen := 64 }.script = .reset :: [] := by decide

/-! ### Witnesses: invariants -/

theorem unit64_inv : unit64.Inv where
  params_wf := by decide
  din_wf := by decide
  din_inside := by decide
  dout_length := by decide
  dout_fits := by decide
  errcode_legal := by decide
  error_done := by decide
  result_done := by decide

theorem facing_inv (a : HostAction) : (facing a).Inv :=
  ⟨unit64_inv.params_wf, unit64_inv.din_wf, unit64_inv.din_inside, unit64_inv.dout_length,
    unit64_inv.dout_fits, unit64_inv.errcode_legal, unit64_inv.error_done, unit64_inv.result_done⟩

theorem facing_scheduleSound (a : HostAction) : (facing a).ScheduleSound := fun _ => ⟨key1, rfl⟩

theorem witness_StepKeepsTheInvariant : (facing (.write .din 63 0xff)).Inv ∧
    ∃ t, step (facing (.write .din 63 0xff)) = .next t ∧ (t.din == [(63, 0xff)]) = true :=
  ⟨facing_inv _, exists_next_of_holds (by decide)⟩

theorem witness_StepKeepsTheScheduleSound : (facing (.write .reg 0 1)).ScheduleSound ∧
    (facing (.write .reg 0 1)).ksValid = true ∧
    ∃ t, step (facing (.write .reg 0 1)) = .next t ∧ t.ksValid = true :=
  ⟨facing_scheduleSound _, rfl, exists_next_of_holds (p := fun t => t.ksValid) (by decide)⟩

theorem witness_OnlyResetClearsTheFlags :
    (∃ t, step (facing (.write .reg 1 0)) = .next t ∧ t.done = true) ∧
    (facing (.write .reg 1 0)).script.head? ≠ some .reset ∧
    (facing (.write .reg 1 0)).ksValid = true ∧ (facing (.write .reg 1 0)).done = true :=
  ⟨exists_next_of_holds (p := fun t => t.done) (by decide), by decide, rfl, rfl⟩

/-! ### Witnesses: registers and host accesses -/

theorem witness_StatusRegister :
    ({ unit64 with errcode := 6 }.readByte .reg 1).getLsbD 1 = true ∧
    (facing (.write .reg 1 0xff)).script = .write .reg 1 0xff :: [] := by decide

theorem witness_StatusRegister_inv : State.Inv { unit64 with errcode := 6 } :=
  ⟨unit64_inv.params_wf, unit64_inv.din_wf, unit64_inv.din_inside, unit64_inv.dout_length,
    unit64_inv.dout_fits, by decide, by decide, by decide⟩

theorem witness_IvctlRegister :
    (facing (.write .reg 3 0xfe)).script = .write .reg 3 0xfe :: [] ∧
    ∃ t, exec .cfbe { unit64 with ivPresent := false } = .next t ∧ t.ivPresent = false := by
  refine ⟨by decide, ?_⟩
  obtain ⟨t, h, hp⟩ := exists_next_of_holds
    (o := exec .cfbe { unit64 with ivPresent := false }) (p := fun t => !t.ivPresent) (by decide)
  exact ⟨t, h, by simpa using hp⟩

theorem witness_LengthRegisters :
    (facing (.write .reg (8 + (3 : Fin 4).val) 0xff)).script = .write .reg 11 0xff :: [] ∧
    (facing (.write .reg 4 0xff)).script = .write .reg 4 0xff :: [] ∧
    (facing (.write .reg 5 0)).script = .write .reg 5 0 :: [] := by decide

theorem witness_ReadOnlyWritesAreIgnored :
    (facing (.write .dout 79 1)).script = .write .dout 79 1 :: [] ∧
    79 < Space.dout.size unit64.params ∧ Space.dout ∈ [Space.ivout, .rk, .dout] ∧
    (facing (.write .reg 15 1)).script = .write .reg 15 1 :: [] ∧
    15 < Space.reg.size unit64.params ∧ 15 ∈ [1, 2, 6, 7, 12, 13, 14, 15] := by decide

theorem witness_HostReadReturnsTheByte :
    (facing (.read .keybuf 15)).script = .read .keybuf 15 :: [] ∧
    15 < Space.keybuf.size unit64.params ∧
    (facing (.read .ivbuf 0)).script = .read .ivbuf 0 :: [] ∧
    (facing (.read .ivout 15)).script = .read .ivout 15 :: [] ∧
    15 < Space.ivout.size unit64.params ∧
    (facing (.read .reg 2)).script = .read .reg 2 :: [] := by decide

theorem witness_HostReadReturnsTheByte_data :
    let s := { fed 16 0xab with dout := [0xcd], doutLen := 1 }
    15 < Space.din.size s.params ∧ s.din.read 15 = some 0xab ∧
    0 < s.dout.length ∧ 0 < s.doutLen.toNat ∧
    175 < Space.rk.size s.params ∧ 175 = 4 * (43 : Fin 44).val + (3 : Fin 4).val ∧
    s.ksValid = true := by decide

theorem witness_HostWriteThenRead :
    (facing (.write .din 63 7)).script = .write .din 63 7 :: [] ∧
    63 < Space.din.size unit64.params ∧ Space.din ∈ [Space.keybuf, .ivbuf, .din] ∧
    (facing (.write .keybuf 15 7)).script = .write .keybuf 15 7 :: [] ∧
    15 < Space.keybuf.size unit64.params := by decide

theorem witness_AccessOutsideASpaceIsRefused :
    (facing (.write .reg 16 1)).script = .write .reg 16 1 :: [] ∧
    Space.reg.size unit64.params ≤ 16 ∧
    (facing (.read .rk 176)).script = .read .rk 176 :: [] ∧
    Space.rk.size unit64.params ≤ 176 ∧
    (facing .elsewhere).script = .elsewhere :: [] := by decide

/-! ### Witnesses: the functions -/

theorem witness_FieldMultiplicationLaws : (0x01 : Byte) ≠ 0 ∧ (0xff : Byte) ≠ 0 := by decide

theorem witness_InverseIsUnique : (0xff : Byte) ≠ 0 ∧ gmul 0xff 0x1c = 1 := by decide

theorem witness_RoundConstants : 2 ≤ 2 ∧ 10 ≤ 10 ∧ 1 ≤ 1 := by decide

theorem witness_ExpandKeyRecurrence : (hexBytes 15 0).length ≠ 16 ∧ (hexBytes 17 0).length ≠ 16 ∧
    (hexBytes 16 0).length = 16 ∧ 4 ≤ 4 ∧ 43 < 44 := by decide

theorem witness_BlockFunctionsFollowTheRounds : (hexBytes 15 0).length ≠ 16 ∧
    (hexBytes 16 0).length = 16 ∧ 1 ≤ (1 : Fin 11).val ∧ (9 : Fin 11).val ≤ 9 := by decide

theorem witness_PaddingIsPkcs7 :
    16 ≤ (hexBytes 16 0x202122232425262728292a2b2c2d2e01).length ∧
    (hexBytes 16 0x202122232425262728292a2b2c2d2e01).length % 16 = 0 ∧
    unpad (hexBytes 16 0x202122232425262728292a2b2c2d2e01) =
      .ok (hexBytes 15 0x202122232425262728292a2b2c2d2e) ∧
    unpad (hexBytes 16 0x10101010101010101010101010101010) = .ok [] :=
  ⟨by decide, by decide, rfl, rfl⟩

theorem witness_PaddingIsPkcs7_malformed :
    16 ≤ (hexBytes 16 0x202122232425262728292a2b2c2d2e00).length ∧
    (hexBytes 16 0x202122232425262728292a2b2c2d2e00).length % 16 = 0 ∧
    ∀ r, unpad (hexBytes 16 0x202122232425262728292a2b2c2d2e00) ≠ .ok r := by
  refine ⟨by decide, by decide, fun r h => ?_⟩
  have : unpad (hexBytes 16 0x202122232425262728292a2b2c2d2e00) = .error .invalidPadding := rfl
  rw [this] at h; cases h

theorem witness_EcbBlocksAreIndependent : 0 < (pad []).length / 16 ∧
    1 < (pad (hexBytes 16 0)).length / 16 := by decide +kernel

theorem witness_EcbRoundTrip : (hexBytes 16 0xff).length = 16 := by decide

theorem witness_SegmentsPartitionTheSequence :
    hexBytes 1 0 ∈ segments (hexBytes 17 0) ∧ hexBytes 16 0 ∈ (segments (hexBytes 17 0)).dropLast := by
  decide +kernel

theorem witness_CfbSegmentEquations : 0 < ((hexBytes 1 0).length + 15) / 16 ∧
    1 < ((hexBytes 17 0).length + 15) / 16 := by decide

theorem witness_CfbIvSensitivity : 16 ≤ (hexBytes 16 0).length ∧ key1 ≠ key2 := by decide +kernel

/-! ### Witnesses: each command completes, and stops, where the statements say -/

theorem witness_KexpExpandsTheKey : unit64.keyLen = 16 ∧
    { unit64 with keyLen := 15 }.keyLen ≠ 16 := by decide

theorem witness_EncbEncryptsTheBlock : (fed 16 0).ksValid = true ∧ (fed 16 0).dinLen = 16 ∧
    (fed 17 0).ksValid = true ∧ (fed 17 0).dinLen ≠ 16 ∧ State.reset.ksValid = false := by decide

theorem witness_DecbDecryptsTheBlock : (fed 16 0).ksValid = true ∧ (fed 16 0).dinLen = 16 ∧
    (fed 0 0).ksValid = true ∧ (fed 0 0).dinLen ≠ 16 ∧ State.reset.ksValid = false := by decide

theorem witness_EcbeEncryptsTheData :
    (fed 64 0).dinLen.toNat ≤ (fed 64 0).params.dinCap ∧ (fed 64 0).keyLen = 16 ∧
    { fed 0 0 with keyLen := 0 }.dinLen.toNat ≤ 64 ∧ { fed 0 0 with keyLen := 0 }.keyLen ≠ 16 ∧
    (fed 65 0).params.dinCap < (fed 65 0).dinLen.toNat := by decide

/-- The clauses after the key check are met under `ERR_ORDER = any` too. -/
theorem witness_ModeCommands_any :
    let s := { fed 15 0 with params := ⟨64, true, .any⟩ }
    s.params.errOrder = .any ∧ s.dinLen.toNat ≤ s.params.dinCap ∧ s.keyLen = 16 ∧
    s.dinLen.toNat % 16 ≠ 0 ∧ s.ivPresent = true ∧ s.ivLen = 16 ∧
    { s with ivLen := 17 }.ivLen ≠ 16 ∧ { s with ivPresent := false }.ivPresent = false ∧
    { s with dinLen := 65 }.params.dinCap < { s with dinLen := 65 }.dinLen.toNat := by decide

/-- The error clauses of ECBD, and the refusal. -/
theorem witness_EcbdDecryptsTheData :
    (fed 15 0).params.errOrder = .fixed ∧ { fed 15 0 with keyLen := 17 }.keyLen ≠ 16 ∧
    (fed 15 0).dinLen.toNat ≤ (fed 15 0).params.dinCap ∧ (fed 15 0).keyLen = 16 ∧
    (fed 15 0).dinLen.toNat % 16 ≠ 0 ∧ (fed 0 0).dinLen = 0 ∧
    (fed 65 0).params.dinCap < (fed 65 0).dinLen.toNat := by decide

/-- The shortest ciphertext, with good padding and with bad padding. -/
theorem witness_EcbdDecryptsTheData_padding :
    let good := fed 16 0x5d8749e2af7531b2bf6661e9e5daf012
    let bad := fed 16 0x69c4e0d86a7b0430d8cdb78070b4c55a
    good.keyLen = 16 ∧ good.dinLen ≠ 0 ∧ good.dinLen.toNat % 16 = 0 ∧
    unpad (ecbDecryptWith (expandBlock good.keybuf)
      ((List.range good.dinLen.toNat).map good.dinByte)) = .ok (hexBytes 5 0x68656c6c6f) ∧
    bad.keyLen = 16 ∧ bad.dinLen ≠ 0 ∧ bad.dinLen.toNat % 16 = 0 ∧
    unpad (ecbDecryptWith (expandBlock bad.keybuf)
      ((List.range bad.dinLen.toNat).map bad.dinByte)) = .error .invalidPadding := by decide +kernel

theorem witness_CfbeEncryptsTheData :
    (fed 64 0).params.errOrder = .fixed ∧ (fed 64 0).dinLen.toNat ≤ (fed 64 0).params.dinCap ∧
    (fed 64 0).keyLen = 16 ∧ (fed 64 0).ivPresent = true ∧ (fed 64 0).ivLen = 16 ∧
    { fed 0 0 with keyLen := 0 }.keyLen ≠ 16 ∧ { fed 0 0 with ivLen := 15 }.ivLen ≠ 16 ∧
    { fed 0 0 with ivPresent := false, ivLen := 0 }.ivPresent = false ∧
    (fed 65 0).params.dinCap < (fed 65 0).dinLen.toNat := by decide

theorem witness_CfbdDecryptsTheData :
    (fed 64 0).params.errOrder = .fixed ∧ (fed 64 0).dinLen.toNat ≤ (fed 64 0).params.dinCap ∧
    (fed 64 0).keyLen = 16 ∧ (fed 64 0).ivPresent = true ∧ (fed 64 0).ivLen = 16 ∧
    { fed 0 0 with keyLen := 0 }.keyLen ≠ 16 ∧ { fed 0 0 with ivLen := 17 }.ivLen ≠ 16 ∧
    { fed 0 0 with ivPresent := false }.ivPresent = false ∧
    (fed 65 0).params.dinCap < (fed 65 0).dinLen.toNat := by decide

theorem witness_CommandAnswersExactlyWhenReady :
    State.Ready (fed 16 0) .encb ∧ State.Ready (fed 64 0) .cfbe ∧
    ¬ State.Ready (fed 65 0) .ecbe ∧ ¬ State.Ready State.reset .decb := by
  refine ⟨rfl, ?_, ?_, ?_⟩ <;> simp only [State.Ready] <;> decide

/-! ### Witnesses: statements over every command that answers -/

/-- Every command answers a next state without error from one state. -/
theorem every_command_answers : ∀ i ∈ [Instr.kexp, .encb, .decb, .ecbe, .cfbe, .cfbd],
    ∃ t, exec i (fed 16 0) = .next t ∧ (t.errcode == 0) = true := by
  intro i hi
  apply exists_next_of_holds
  revert i
  decide

/-- ECBD too, on a ciphertext with good padding. -/
theorem ecbd_answers : ∃ t, exec .ecbd (fed 16 0x5d8749e2af7531b2bf6661e9e5daf012) = .next t ∧
    (t.errcode == 0 && t.dout == hexBytes 5 0x68656c6c6f) = true := exists_next_of_holds test_ecbd

theorem witness_CommandFrame : (∃ t, exec .kexp (fed 16 0) = .next t ∧ (t.errcode == 0) = true) ∧
    Space.din ∈ [Space.keybuf, .ivbuf, .din] ∧ Instr.kexp ≠ .cfbe :=
  ⟨every_command_answers _ (by decide), by decide, by decide⟩

theorem witness_CommandFrame_encb : ∃ t, exec .encb (fed 16 0) = .next t ∧ (t.errcode == 0) = true :=
  every_command_answers _ (by decide)

theorem witness_IvoutWrittenByCfbeOnly :
    (∃ t, exec .cfbe { unit64 with ivLen := 15 } = .next t ∧ (t.errcode != 0) = true) ∧
    (∃ t, exec .cfbe unit64 = .next t ∧ (t.errcode == 0) = true) ∧ unit64.ivPresent = true ∧
    ∃ t, hostWrite unit64 .ivout 15 0xff = .next t ∧ (t.errcode == 0) = true :=
  ⟨exists_next_of_holds (by decide), exists_next_of_holds (by decide), rfl,
    exists_next_of_holds (by decide)⟩

theorem witness_OrderOfChecks_fixed :
    (fed 15 0).params.errOrder = .fixed ∧
    ∃ t, exec .ecbd { fed 15 0 with keyLen := 15 } = .next t ∧ (t.errcode == 1) = true :=
  ⟨rfl, exists_next_of_holds (by decide)⟩

/-- Under `any` the reported code depends on a free choice, but the command answers. -/
theorem witness_OrderOfChecks_any :
    let s := { fed 15 0 with keyLen := 15, params := ⟨64, true, .any⟩ }
    s.params.errOrder = .any ∧ s.keyLen ≠ 16 ∧ s.dinLen.toNat % 16 ≠ 0 ∧
    ∃ t, exec .ecbd s = .next t := by
  refine ⟨rfl, by decide, by decide, ?_⟩
  exact ⟨_, rfl⟩

theorem witness_OrderOfChecks_padding :
    ∃ t, exec .ecbd (fed 16 0x69c4e0d86a7b0430d8cdb78070b4c55a) = .next t ∧ t.errcode = 0x05 := by
  obtain ⟨t, h, hp⟩ := exists_next_of_holds test_ecbd_bad_padding
  exact ⟨t, h, by simp_all⟩

theorem witness_ErrorEntry :
    (∃ t, exec .kexp { unit64 with keyLen := 0 } = .next t ∧ (t.errcode == 1) = true) ∧
    ∃ t, exec .cfbd { unit64 with ivPresent := false } = .next t ∧ (t.errcode == 6) = true :=
  ⟨exists_next_of_holds (by decide), exists_next_of_holds (by decide)⟩

theorem witness_ErrorEntry_padding :
    ∃ t, exec .ecbd (fed 16 0x69c4e0d86a7b0430d8cdb78070b4c55a) = .next t ∧ t.errcode = 0x05 :=
  witness_OrderOfChecks_padding

theorem witness_LeftoversAreNotRead :
    ∃ t, exec .decb (fed 16 0) = .next t ∧ (t.errcode == 0) = true :=
  every_command_answers _ (by decide)

theorem witness_CommandsIgnoreUnusedOperands :
    (∃ t, exec .encb (fed 16 0) = .next t ∧ (t.errcode == 0) = true) ∧
    (∃ t, exec .ecbe (fed 16 0) = .next t ∧ (t.errcode == 0) = true) ∧
    Instr.ecbe ≠ .cfbe ∧ Instr.ecbe ≠ .cfbd :=
  ⟨every_command_answers _ (by decide), every_command_answers _ (by decide), by decide, by decide⟩

theorem witness_ModeCommandsLoadTheSchedule :
    Instr.cfbd.hostLevel = true ∧
    (∃ t, exec .cfbd (fed 16 0) = .next t ∧ (t.errcode == 0) = true) ∧
    ∃ t, exec .cfbd { unit64 with ivLen := 15 } = .next t ∧
      (t.errcode != 0 && t.errcode != 5) = true :=
  ⟨rfl, every_command_answers _ (by decide), exists_next_of_holds (by decide)⟩

theorem witness_RandomSourceConsultedOnce :
    { unit64 with ivPresent := false }.ivPresent = false ∧
    ∃ t, exec .cfbe { unit64 with ivPresent := false } = .next t ∧ t.errcode = 0 := by
  obtain ⟨t, h, hp⟩ := exists_next_of_holds
    (o := exec .cfbe { unit64 with ivPresent := false }) (p := fun t => t.errcode == 0) (by decide)
  exact ⟨rfl, t, h, by simpa using hp⟩

theorem witness_ResultIsReadable : unit64.Inv ∧ isDataCommand .ecbe = true ∧
    ∃ t, exec .ecbe unit64 = .next t ∧ (t.errcode == 0) = true :=
  ⟨unit64_inv, rfl, exists_next_of_holds (by decide)⟩

/-- R168's example at the interface: "hello" out and back. -/
theorem witness_EcbeThenEcbdReturnsThePlaintext :
    let s := fed 5 0x68656c6c6f
    let u := fed 16 0x5d8749e2af7531b2bf6661e9e5daf012
    ∃ t, exec .ecbe s = .next t ∧ t.errcode = 0 ∧ u.keyLen = 16 ∧ u.keybuf = s.keybuf ∧
      u.dinLen.toNat ≤ u.params.dinCap ∧ u.dataOperand = t.dout := by
  obtain ⟨t, h, hp⟩ := exists_next_of_holds test_ecbe
  simp only [Bool.and_eq_true, beq_iff_eq] at hp
  exact ⟨t, h, hp.1, rfl, rfl, by decide, by rw [hp.2]; decide +kernel⟩

theorem witness_CfbeThenCfbdReturnsThePlaintext :
    let s := { fed 20 0x6bc1bee22e409f96e93d7e117393172aae2d8a57 with keybuf := key2 }
    let u := { fed 20 0x3b3fd92eb72dad20333449f8e83cfb4ac8a64537 with keybuf := key2 }
    ∃ t, exec .cfbe s = .next t ∧ t.errcode = 0 ∧ u.keyLen = 16 ∧ u.keybuf = s.keybuf ∧
      u.ivPresent = true ∧ u.ivLen = 16 ∧ u.ivbuf = t.ivout ∧
      u.dinLen.toNat ≤ u.params.dinCap ∧ u.dataOperand = t.dout := by
  obtain ⟨t, h, hp⟩ := exists_next_of_holds test_cfbe
  simp only [Bool.and_eq_true, beq_iff_eq] at hp
  exact ⟨t, h, hp.1.1, rfl, rfl, rfl, rfl, hp.1.2.symm, by decide, by rw [hp.2]; decide +kernel⟩

/-! ### Witnesses: host scripts -/

theorem witness_PlainScriptsAreSafe :
    let s := unit64.withScript [.write .din 63 1, .read .reg 15, .reset]
    ∀ a ∈ s.script, a.wf s.params = true ∧ ∀ op, a ≠ .write .reg 0 op := by
  intro s a ha
  have : a = .write .din 63 1 ∨ a = .read .reg 15 ∨ a = .reset := by
    simpa [s, State.withScript] using ha
  rcases this with rfl | rfl | rfl <;> exact ⟨by decide, by simp⟩

/-- Keys of 0, 16, 17 and 255 bytes. -/
theorem witness_LdkeyLineLoadsTheKey : ∀ n ∈ [0, 16, 17, 255],
    (hexBytes n 0xff).length ≤ 255 ∧
    (unit64.withScript (expandLine unit64 (.ldkey (hexBytes n 0xff)))).script =
      expandLine unit64 (.ldkey (hexBytes n 0xff)) ++ [] := by
  intro n hn
  refine ⟨?_, by simp [State.withScript]⟩
  simp only [hexBytes, List.length_map, List.length_range]
  revert n
  decide

theorem witness_LddinLineLoadsTheData :
    unit64.params.wf = true ∧ (hexBytes 64 0xff).length ≤ unit64.params.dinCap ∧
    (unit64.withScript (expandLine unit64 (.lddin (hexBytes 64 0xff)))).script =
      expandLine unit64 (.lddin (hexBytes 64 0xff)) ++ [] := by
  exact ⟨by decide, by decide, by simp [State.withScript]⟩

end Sys2Proof.Tests
end

section
/-! PROOFS. The family 10_state.md: the registers REG 1 to 3, the reset and IVOUT. First the rules that
are not this family's own: what a command answers as an equivalence, the frame of the commands, and the
step of an accepted host write. -/

namespace Sys2Proof.Machine

/-! ### What a command answers -/

/-- What command `i` leaves when every length check passes. -/
def State.commandWork (s : State) : Instr → State
  | .kexp => s.beginCommand.loadSchedule.endCommand
  | .encb => (s.beginCommand.deliver (encrypt s.rk s.blockOperand).toList).endCommand
  | .decb => (s.beginCommand.deliver (decrypt s.rk s.blockOperand).toList).endCommand
  | .ecbe => ecbeWork s.beginCommand.loadSchedule
  | .ecbd => ecbdWork s.beginCommand.loadSchedule
  | .cfbe => cfbeWork s.beginCommand.loadSchedule
  | .cfbd => cfbdWork s.beginCommand.loadSchedule

/-- How command `i` ends: with the error of a failing length check if there is one (R207), otherwise
in `u`. -/
def State.checked (s : State) (i : Instr) (u : State) : State :=
  match s.lengthError i with
  | some e => s.beginCommand.raiseError i e
  | none => u

section commands

variable {s t : State} {i : Instr} {f : Schedule → Block → Block} {work : State → State}

theorem checked_of_lengthError {e : ErrorKind} (u : State) (h : s.lengthError i = some e) :
    s.checked i u = s.beginCommand.raiseError i e := by
  simp [State.checked, h]

theorem checked_of_passed (u : State) (h : s.lengthError i = none) : s.checked i u = u := by
  simp [State.checked, h]

@[simp] theorem beginCommand_blockOperand (s : State) :
    s.beginCommand.blockOperand = s.blockOperand := rfl

theorem execKexp_eq_next_iff :
    execKexp s = .next t ↔ s.checked .kexp s.beginCommand.loadSchedule.endCommand = t := by
  simp only [execKexp, lengthError_beginCommand, State.checked]
  cases s.lengthError .kexp <;> simp

theorem blockCommand_eq_next_iff :
    blockCommand i f s = .next t ↔ s.ksValid = true ∧
      s.checked i (s.beginCommand.deliver (f s.rk s.blockOperand).toList).endCommand = t := by
  simp only [blockCommand, lengthError_beginCommand, State.checked]
  split
  case isTrue h => cases s.lengthError i <;> simp [h]
  case isFalse h => simp [h]

theorem modeCommand_eq_next_iff :
    modeCommand i work s = .next t ↔ s.dinLen.toNat ≤ s.params.dinCap ∧
      s.checked i (work s.beginCommand.loadSchedule) = t := by
  simp only [modeCommand, lengthError_beginCommand, State.checked, State.dinFits, decide_eq_true_eq]
  split
  case isTrue h => cases s.lengthError i <;> simp [h]
  case isFalse h => simp [h]

/-- A command answers exactly when its preconditions hold, and then with the error of a failing length
check or with its work done: the equivalence behind `exec_cases`. -/
theorem exec_eq_next_iff :
    exec i s = .next t ↔ s.Ready i ∧ s.checked i (s.commandWork i) = t := by
  cases i with
  | kexp => exact execKexp_eq_next_iff.trans (and_iff_right trivial).symm
  | encb => exact blockCommand_eq_next_iff
  | decb => exact blockCommand_eq_next_iff
  | ecbe => exact modeCommand_eq_next_iff
  | ecbd => exact modeCommand_eq_next_iff
  | cfbe => exact modeCommand_eq_next_iff
  | cfbd => exact modeCommand_eq_next_iff

/-! ### The frame of the commands (R74, D26) -/

theorem commandWork_sameHostSide (s : State) (i : Instr) : s.SameHostSide (s.commandWork i) := by
  cases i with
  | kexp | encb | decb => constructor <;> simp [State.commandWork]
  | ecbe => constructor <;> simp [State.commandWork, ecbeWork]
  | ecbd =>
    rcases ecbdWork_cases s.beginCommand.loadSchedule with ⟨r, -, hw⟩ | ⟨-, hw⟩ <;>
      constructor <;> simp [State.commandWork, hw]
  | cfbe => constructor <;> simp [State.commandWork, cfbeWork]
  | cfbd => constructor <;> simp [State.commandWork, cfbdWork]

/-- No command writes an operand or a register of the host, whether it raises or not. -/
theorem exec_sameHostSide (h : exec i s = .next t) : s.SameHostSide t := by
  obtain ⟨-, rfl⟩ := exec_eq_next_iff.1 h
  cases he : s.lengthError i with
  | some e => rw [checked_of_lengthError _ he]; constructor <;> simp
  | none => rw [checked_of_passed _ he]; exact commandWork_sameHostSide s i

/-! ### IVOUT (R43, R184) -/

@[simp] theorem cfbeWork_errcode (s : State) : (cfbeWork s).errcode = s.errcode := by simp [cfbeWork]

@[simp] theorem cfbeWork_ivout (s : State) : (cfbeWork s).ivout = s.encryptIv := by simp [cfbeWork]

@[simp] theorem cfbeWork_dout (s : State) :
    (cfbeWork s).dout = cfbEncryptLoop s.dataOperand s.rk s.encryptIv := by simp [cfbeWork]

theorem errorCode_ne_zero (e : ErrorKind) : errorCode e ≠ 0 := by cases e <;> decide

theorem encryptIv_of_present (h : s.ivPresent = true) : s.encryptIv = s.ivbuf := by
  simp [State.encryptIv, State.ivOperand, h]

theorem commandWork_ivout (s : State) (h : i ≠ .cfbe) : (s.commandWork i).ivout = s.ivout := by
  cases i with
  | kexp | encb | decb => simp [State.commandWork]
  | ecbe => simp [State.commandWork, ecbeWork]
  | ecbd =>
    rcases ecbdWork_cases s.beginCommand.loadSchedule with ⟨r, -, hw⟩ | ⟨-, hw⟩ <;>
      simp [State.commandWork, hw]
  | cfbe => exact absurd rfl h
  | cfbd => simp [State.commandWork, cfbdWork]

/-- A command leaves `IVOUT` unless it is a CFBE that has passed its checks. -/
theorem exec_ivout (h : exec i s = .next t) :
    t.ivout = s.ivout ∨ (i = .cfbe ∧ t.errcode = 0) := by
  obtain ⟨-, rfl⟩ := exec_eq_next_iff.1 h
  cases he : s.lengthError i with
  | some e => rw [checked_of_lengthError _ he]; simp
  | none =>
    rw [checked_of_passed _ he]
    by_cases hi : i = .cfbe
    · subst hi; simp [State.commandWork]
    · exact .inl (commandWork_ivout s hi)

/-- A CFBE that ends without error has done its work. -/
theorem exec_cfbe_success (h : exec .cfbe s = .next t) (ht : t.errcode = 0) :
    t = cfbeWork s.beginCommand.loadSchedule := by
  obtain ⟨-, rfl⟩ := exec_eq_next_iff.1 h
  cases he : s.lengthError .cfbe with
  | some e =>
    rw [checked_of_lengthError _ he] at ht
    exact absurd ht (by simpa using errorCode_ne_zero e)
  | none => exact checked_of_passed _ he

end commands

/-! ### Host writes and register reads -/

section registers

variable {s : State}

theorem writeByte_ivout (s : State) (sp : Space) (off : Nat) (v : Byte) :
    (s.writeByte sp off v).ivout = s.ivout := by
  cases sp with
  | reg => simp only [State.writeByte, State.regWrite]; split <;> rfl
  | keybuf | ivbuf | ivout | rk | din | dout => rfl

/-- A host write inside its space, other than to `CMD`, is answered (R56). -/
theorem step_write_inside {sp : Space} {off : Nat} {v : Byte} {rest : List HostAction}
    (h : s.script = .write sp off v :: rest) (h0 : (sp, off) ≠ (Space.reg, 0))
    (hlt : off < sp.size s.params) : step s = .next ((s.withScript rest).writeByte sp off v) :=
  (step_write h h0).trans (if_pos hlt)

/-- A write to a register other than `CMD` is answered (R26, R56). -/
theorem step_regWrite {n : Nat} {v : Byte} {rest : List HostAction}
    (h : s.script = .write .reg n v :: rest) (h0 : n ≠ 0) (hlt : n < 16) :
    step s = .next ((s.withScript rest).regWrite n v) :=
  step_write_inside h (by simpa using h0) hlt

theorem err_eq_decide (s : State) : s.err = decide (s.errcode ≠ 0) := by
  simp [State.err, bne, beq_eq_decide]

/-- The three flags of `STATUS`, and nothing above them (R31). -/
theorem status_bits (s : State) :
    s.status.getLsbD 0 = s.done ∧ s.status.getLsbD 1 = decide (s.errcode ≠ 0) ∧
    s.status.getLsbD 2 = s.ksValid ∧ s.status.toNat ≤ 7 := by
  rw [← err_eq_decide, State.status]
  generalize s.done = d, s.err = e, s.ksValid = k
  revert d e k
  decide

/-- With the three fields behind it 0, `STATUS` reads 0. -/
theorem status_eq_zero (hd : s.done = false) (he : s.errcode = 0) (hk : s.ksValid = false) :
    s.readByte .reg 1 = 0 := by
  simp [State.readByte, State.regRead, State.status, err_eq_decide, hd, he, hk, zextBit]

end registers

/-! ### With `IV_PRESENT = 0` no command looks at `IV_LEN` or `IVBUF` (R35) -/

/-- `s` with other contents of `IV_LEN` and `IVBUF`. -/
def State.setIv (s : State) (n : Byte) (b : Block) : State := { s with ivLen := n, ivbuf := b }

section setIv

variable (s : State) (n : Byte) (b : Block) {i : Instr}

@[simp] theorem setIv_rk : (s.setIv n b).rk = s.rk := rfl
@[simp] theorem setIv_ivPresent : (s.setIv n b).ivPresent = s.ivPresent := rfl
@[simp] theorem setIv_blockOperand : (s.setIv n b).blockOperand = s.blockOperand := rfl
@[simp] theorem setIv_dataOperand : (s.setIv n b).dataOperand = s.dataOperand := rfl

theorem setIv_ready : (s.setIv n b).Ready i ↔ s.Ready i := by cases i <;> rfl

@[simp] theorem beginCommand_setIv : (s.setIv n b).beginCommand = s.beginCommand.setIv n b := rfl

@[simp] theorem endCommand_setIv : (s.setIv n b).endCommand = s.endCommand.setIv n b := rfl

@[simp] theorem deliver_setIv (r : List Byte) :
    (s.setIv n b).deliver r = (s.deliver r).setIv n b := rfl

@[simp] theorem setIvout_setIv (iv : Block) :
    (s.setIv n b).setIvout iv = (s.setIvout iv).setIv n b := rfl

@[simp] theorem loadSchedule_setIv : (s.setIv n b).loadSchedule = s.loadSchedule.setIv n b := by
  dsimp only [State.loadSchedule, State.setIv, State.keyOperand]

@[simp] theorem raiseError_setIv (e : ErrorKind) :
    (s.setIv n b).raiseError i e = (s.raiseError i e).setIv n b := by cases i <;> rfl

@[simp] theorem countDraw_setIv : (s.setIv n b).countDraw = s.countDraw.setIv n b := by
  rw [State.countDraw, State.countDraw, apply_ite (State.setIv · n b)]
  rfl

@[simp] theorem ecbdWork_setIv : ecbdWork (s.setIv n b) = (ecbdWork s).setIv n b := by
  simp only [ecbdWork, setIv_rk, setIv_dataOperand]
  split <;> simp

variable {s}

theorem ivLengthErrors_of_absent (h : s.ivPresent = false) : s.ivLengthErrors = [] := by
  simp [State.ivLengthErrors, h]

theorem encryptIv_of_absent (h : s.ivPresent = false) : s.encryptIv = Config.draw16 s.draws := by
  simp [State.encryptIv, h]

/-- A CFBD without an IV fails the check for MissingIV (R206). -/
theorem cfbd_failingChecks_of_absent (h : s.ivPresent = false) : s.failingChecks .cfbd ≠ [] := by
  simp [State.failingChecks, State.missingIvErrors, h]

theorem lengthError_setIv (h : s.ivPresent = false) :
    (s.setIv n b).lengthError i = s.lengthError i := by
  have hc : (s.setIv n b).failingChecks i = s.failingChecks i := by
    cases i with
    | kexp | encb | decb | ecbe | ecbd => rfl
    | cfbe | cfbd =>
      simp only [State.failingChecks, ivLengthErrors_of_absent h,
        ivLengthErrors_of_absent (s := s.setIv n b) h]
      rfl
  unfold State.lengthError
  rw [hc]
  rfl

theorem cfbeWork_setIv (h : s.ivPresent = false) :
    cfbeWork (s.setIv n b) = (cfbeWork s).setIv n b := by
  have hiv : (s.setIv n b).encryptIv = s.encryptIv := by
    rw [encryptIv_of_absent h, encryptIv_of_absent (s := s.setIv n b) h]
    rfl
  simp [cfbeWork, hiv]

/-- Once its checks have passed, a command does the same whatever `IV_LEN` and `IVBUF` hold. -/
theorem commandWork_setIv (h : s.ivPresent = false) (hp : s.failingChecks i = []) :
    (s.setIv n b).commandWork i = (s.commandWork i).setIv n b := by
  cases i with
  | kexp | encb | decb | ecbd => simp [State.commandWork]
  | ecbe => simp [State.commandWork, ecbeWork]
  | cfbe => simpa [State.commandWork] using cfbeWork_setIv n b (by simpa using h)
  | cfbd => exact absurd hp (cfbd_failingChecks_of_absent h)

theorem checked_setIv (h : s.ivPresent = false) :
    (s.setIv n b).checked i ((s.setIv n b).commandWork i) =
      (s.checked i (s.commandWork i)).setIv n b := by
  have hl := lengthError_setIv n b (i := i) h
  cases he : s.lengthError i with
  | some e =>
    rw [checked_of_lengthError _ he, checked_of_lengthError _ (hl.trans he)]
    simp
  | none =>
    rw [checked_of_passed _ he, checked_of_passed _ (hl.trans he)]
    exact commandWork_setIv n b h (lengthError_eq_none.1 he)

/-- With `IV_PRESENT = 0` a command answers the same for any other `IV_LEN` and `IVBUF`. -/
theorem exec_setIv {t : State} (h : s.ivPresent = false) (ht : exec i s = .next t) :
    exec i (s.setIv n b) = .next (t.setIv n b) := by
  obtain ⟨hr, rfl⟩ := exec_eq_next_iff.1 ht
  exact exec_eq_next_iff.2 ⟨(setIv_ready s n b).2 hr, checked_setIv n b h⟩

end setIv

/-! ### The statements -/

/-- Settles O11: the write and the read are REG 3's, `exec_sameHostSide` gives the frame, and
`exec_setIv` that `IV_LEN` and `IVBUF` are ignored. -/
theorem ivctlRegister : Obligations.IvctlRegister := by
  refine ⟨fun s v rest h => ?_, fun s => rfl, fun i s t h => ?_, fun i s t n b h ht => ?_⟩
  · exact step_regWrite h (by decide) (by decide)
  · exact (exec_sameHostSide h).ivPresent
  · exact exec_setIv n b h ht

/-- Settles O47: by `exec_ivout` only a CFBE without error writes IVOUT, and by `exec_cfbe_success` it
leaves there the IV its segment loop used. -/
theorem ivoutWrittenByCfbeOnly : Obligations.IvoutWrittenByCfbeOnly := by
  refine ⟨fun i s t h hi => ?_, fun s t h ht => ?_, fun s t sp off v h => ?_⟩
  · rcases exec_ivout h with hk | ⟨rfl, he⟩
    · exact hk
    · exact absurd hi (by simp [he])
  · rw [exec_cfbe_success h ht]
    exact ⟨fun hp => by simpa using encryptIv_of_present hp, by simp⟩
  · obtain ⟨-, rfl⟩ := hostWrite_cases h
    exact writeByte_ivout s sp off v

/-- Settles O5: both states have the eight fields at 0, so `status_eq_zero` gives the two reads. -/
theorem resetClearsTheControlFields : Obligations.ResetClearsTheControlFields := by
  refine ⟨⟨rfl, rfl, rfl, rfl, rfl, rfl, rfl, rfl, status_eq_zero rfl rfl rfl, rfl⟩, ?_⟩
  intro s rest h
  exact ⟨_, step_reset h, rfl, rfl, rfl, rfl, rfl, rfl, rfl, rfl, status_eq_zero rfl rfl rfl, rfl⟩

/-- Settles O10: the bits by `status_bits`, `ERR` implies `DONE` by the invariant's `error_done`, and
REG 1 is a register that ignores writes. -/
theorem statusRegister : Obligations.StatusRegister := by
  refine ⟨status_bits, fun s hinv herr => ?_, fun s v rest h => ?_⟩
  · obtain ⟨hdone, hbit, -, -⟩ := status_bits s
    exact hdone.trans (hinv.error_done (of_decide_eq_true (hbit.symm.trans herr)))
  · exact step_regWrite h (by decide) (by decide)

end Sys2Proof.Machine
end

section
/-! PROOFS. The bytes that issue no command (30_encoding.md R70 to R73). -/

namespace Sys2Proof.Machine

/-! ### The opcode table read backwards -/

/-- Every row compares all eight bits with the command byte of its own command (R70, R71). -/
theorem opcodeTable_row : ∀ r ∈ opcodeTable, r.mask = 0xFF ∧ r.bits = encode r.instr := by decide

/-- A row of the opcode table claims no byte but the command byte of its command. -/
theorem eq_encode_of_claims {r : OpRow} {op : Byte} (hr : r ∈ opcodeTable)
    (hc : r.claims op = true) : op = encode r.instr := by
  obtain ⟨hmask, hbits⟩ := opcodeTable_row r hr
  calc op = op &&& 0xFF := BitVec.and_allOnes.symm
    _ = op &&& r.mask := by rw [hmask]
    _ = r.bits := eq_of_beq hc
    _ = encode r.instr := hbits

/-- A byte that decodes to a command is that command's byte (R71). -/
theorem encode_of_decode {op : Byte} {i : Instr} (h : decode op = .ok i) : encode i = op := by
  unfold decode at h
  split at h
  next r hr =>
    cases h
    have hclaims := List.find?_some hr
    exact (eq_encode_of_claims (List.mem_of_find?_eq_some hr) hclaims).symm
  · cases h

/-- The assigned bytes are `0x01` to `0x07` (R71, R73). -/
theorem encode_assigned (i : Instr) : 1 ≤ (encode i).toNat ∧ (encode i).toNat ≤ 7 := by
  cases i <;> decide

/-- The host-level commands are those above `0x03` (R71). -/
theorem hostLevel_iff_encode (i : Instr) : i.hostLevel = true ↔ 3 < (encode i).toNat := by
  cases i <;> decide

/-- A byte that issues a command is an assigned one, and with `HOST_COMPONENT_CMDS = false` a
host-level one (R72, R73). -/
theorem issued_range {p : Params} {op : Byte} {i : Instr} (h : issued p op = some i) :
    1 ≤ op.toNat ∧ op.toNat ≤ 7 ∧ (p.hostComponentCmds = false → 3 < op.toNat) := by
  obtain ⟨hdec, hwf⟩ := issued_eq_some h
  obtain rfl := encode_of_decode hdec
  obtain ⟨hlow, hhigh⟩ := encode_assigned i
  refine ⟨hlow, hhigh, fun hc => (hostLevel_iff_encode i).1 ?_⟩
  simpa [Instr.wf, hc] using hwf

/-! ### The statement -/

/-- Settles O4: by `issued_range` no reserved byte issues a command, and `step_reserved` is the step of
such a byte. -/
theorem reservedBytesAreRefused : Obligations.ReservedBytesAreRefused := by
  intro s op rest hscript hres
  refine step_reserved hscript (Option.eq_none_iff_forall_ne_some.2 fun i hi => ?_)
  obtain ⟨hlow, hhigh, hhost⟩ := issued_range hi
  rcases hres with hzero | hbig | ⟨hc, hcomponent⟩
  · omega
  · omega
  · exact absurd hcomponent (Nat.not_le.2 (hhost hc))

end Sys2Proof.Machine
end

section
/-! PROOFS. GF(2^8) and the S-box (40_gf_sbox.md R90 to R97). The laws of `GMUL` come from one idea: a
map of bytes that keeps `^` and commutes with `XTIME` can be applied to the left factor instead of the
product (`XtimeLinear.map_gmul`), and multiplication by a fixed byte is such a map. The S-box is then
reached from its table: undoing `AFFINE` on an entry gives a byte whose product with the index is 1, and
there is only one such byte. -/

namespace Sys2Proof.Machine

/-! ### `XTIME` (R91) -/

/-- `XTIME` as a shift and the reduction that bit 7 asks for. -/
theorem xtime_eq_xor (a : Byte) :
    xtime a = (a <<< 1) ^^^ (if a.getLsbD 7 then 0x1B else 0) := by
  rw [xtime]
  split <;> simp

theorem getLsbD_seven (a : Byte) : a.getLsbD 7 = decide (128 ≤ a.toNat) := BitVec.getLsbD_last a

theorem toNat_shiftLeft_one (a : Byte) : (a <<< 1).toNat = 2 * a.toNat % 256 := by
  rw [BitVec.toNat_shiftLeft, Nat.shiftLeft_eq, Nat.mul_comm]

theorem getLsbD_shiftLeft_one (a : Byte) {i : Nat} (hi : i < 7) :
    (a <<< 1).getLsbD (i + 1) = a.getLsbD i := by
  have hin : i + 1 < 8 := by omega
  rw [BitVec.getLsbD_shiftLeft]
  simp [hin]

theorem xtime_toNat (a : Byte) : (xtime a).toNat =
    if 128 ≤ a.toNat then ((2 * a.toNat) % 256) ^^^ 0x1B else 2 * a.toNat := by
  simp only [xtime, getLsbD_seven, decide_eq_true_eq]
  split
  · rw [BitVec.toNat_xor, toNat_shiftLeft_one]
    rfl
  · rw [toNat_shiftLeft_one]
    omega

theorem xtime_xor (a b : Byte) : xtime (a ^^^ b) = xtime a ^^^ xtime b := by
  simp only [xtime_eq_xor, BitVec.shiftLeft_xor_distrib, BitVec.getLsbD_xor]
  have hred : (if a.getLsbD 7 ^^ b.getLsbD 7 then 0x1B else 0 : Byte) =
      (if a.getLsbD 7 then 0x1B else 0) ^^^ (if b.getLsbD 7 then 0x1B else 0) := by
    cases a.getLsbD 7 <;> cases b.getLsbD 7 <;> rfl
  rw [hred]
  ac_rfl

/-- The reduction alone sets bit 0, so bit 0 of the result tells whether it took place. -/
theorem xtime_bit_zero (a : Byte) : (xtime a).getLsbD 0 = a.getLsbD 7 := by
  rw [xtime_eq_xor, BitVec.getLsbD_xor]
  cases a.getLsbD 7 <;> simp

theorem xtime_injective : Function.Injective xtime := by
  intro a b h
  have htop : a.getLsbD 7 = b.getLsbD 7 := by rw [← xtime_bit_zero, h, xtime_bit_zero]
  have hshift : a <<< 1 = b <<< 1 := by
    rw [xtime_eq_xor, xtime_eq_xor, htop] at h
    exact (BitVec.xor_left_inj _).1 h
  refine BitVec.eq_of_getLsbD_eq fun i hi => ?_
  by_cases h7 : i = 7
  · rw [h7, htop]
  · have h7lt : i < 7 := by omega
    have hbit := congrArg (fun x : Byte => x.getLsbD (i + 1)) hshift
    rwa [getLsbD_shiftLeft_one a h7lt, getLsbD_shiftLeft_one b h7lt] at hbit

/-- Settles O17: `xtime_toNat` is the value, and an injective map of the finitely many bytes is
bijective. -/
theorem xtimeDoublesAndReduces : Obligations.XtimeDoublesAndReduces :=
  ⟨xtime_toNat, Finite.injective_iff_bijective.1 xtime_injective⟩

/-! ### `GMUL` (R92) -/

/-- A map of bytes that keeps the field's addition and commutes with the multiplication by `x`. -/
structure XtimeLinear (f : Byte → Byte) : Prop where
  map_xor : ∀ a b, f (a ^^^ b) = f a ^^^ f b
  map_xtime : ∀ a, f (xtime a) = xtime (f a)

theorem xtimeLinear_xtime : XtimeLinear xtime := ⟨xtime_xor, fun _ => rfl⟩

theorem XtimeLinear.map_zero {f : Byte → Byte} (hf : XtimeLinear f) : f 0 = 0 := by
  simpa using hf.map_xor 0 0

theorem XtimeLinear.map_gmulFrom {f : Byte → Byte} (hf : XtimeLinear f) (b : Byte) (n i : Nat)
    (p t : Byte) : f (gmulFrom b n i p t) = gmulFrom b n i (f p) (f t) := by
  induction n generalizing i p t with
  | zero => rfl
  | succ n ih =>
    rw [gmulFrom, gmulFrom, ih, apply_ite f, hf.map_xor, hf.map_xtime]

/-- Such a map can be applied to the left factor instead of the product. -/
theorem XtimeLinear.map_gmul {f : Byte → Byte} (hf : XtimeLinear f) (a b : Byte) :
    f (gmul a b) = gmul (f a) b := by
  rw [gmul, hf.map_gmulFrom, hf.map_zero, gmul]

theorem gmulFrom_xor (b : Byte) (n i : Nat) (p p' t t' : Byte) :
    gmulFrom b n i (p ^^^ p') (t ^^^ t') = gmulFrom b n i p t ^^^ gmulFrom b n i p' t' := by
  induction n generalizing i p p' t t' with
  | zero => rfl
  | succ n ih =>
    have hsum : (if b.getLsbD i then (p ^^^ p') ^^^ (t ^^^ t') else p ^^^ p') =
        (if b.getLsbD i then p ^^^ t else p) ^^^ (if b.getLsbD i then p' ^^^ t' else p') := by
      split
      · ac_rfl
      · rfl
    rw [gmulFrom, gmulFrom, gmulFrom, hsum, xtime_xor, ih]

theorem gmul_xor_left (a a' b : Byte) : gmul (a ^^^ a') b = gmul a b ^^^ gmul a' b :=
  gmulFrom_xor b 8 0 0 0 a a'

theorem gmul_xtime_left (a b : Byte) : gmul (xtime a) b = xtime (gmul a b) :=
  (xtimeLinear_xtime.map_gmul a b).symm

theorem xtimeLinear_gmul_right (c : Byte) : XtimeLinear (gmul · c) :=
  ⟨fun a b => gmul_xor_left a b c, fun a => gmul_xtime_left a c⟩

theorem gmul_one_left (b : Byte) : gmul 1 b = b := by
  revert b
  decide +kernel

theorem gmul_right_comm (a b c : Byte) : gmul (gmul a b) c = gmul (gmul a c) b :=
  (xtimeLinear_gmul_right c).map_gmul a b

theorem gmul_comm (a b : Byte) : gmul a b = gmul b a := by
  have h := gmul_right_comm 1 a b
  rwa [gmul_one_left, gmul_one_left] at h

theorem gmul_one_right (a : Byte) : gmul a 1 = a := by rw [gmul_comm, gmul_one_left]

theorem gmul_assoc (a b c : Byte) : gmul (gmul a b) c = gmul a (gmul b c) := by
  rw [gmul_comm a b, gmul_right_comm, gmul_comm]

/-! ### `GINV` (R93) -/

theorem eq_of_gmul_eq_one {a y z : Byte} (hy : gmul a y = 1) (hz : gmul a z = 1) : y = z :=
  calc y = gmul y (gmul a z) := by rw [hz, gmul_one_right]
    _ = gmul (gmul a y) z := by rw [← gmul_assoc, gmul_comm y a]
    _ = z := by rw [hy, gmul_one_left]

theorem mem_bytes (y : Byte) : y ∈ (List.range 256).map (BitVec.ofNat 8) :=
  List.mem_map.2 ⟨y.toNat, List.mem_range.2 y.isLt, BitVec.ofNat_toNat 8 y⟩

/-- The search of `GINV` ends at the one byte whose product with `a` is 1. -/
theorem ginv_eq_of_gmul_eq_one {a y : Byte} (ha : a ≠ 0) (h : gmul a y = 1) : ginv a = y := by
  rw [ginv, if_neg ha]
  cases hfind : ((List.range 256).map (BitVec.ofNat 8)).find? fun y => gmul a y == 1 with
  | none => exact absurd h (by simpa using List.find?_eq_none.1 hfind y (mem_bytes y))
  | some z => exact eq_of_gmul_eq_one (by simpa using List.find?_some hfind) h

/-! ### `AFFINE` (R94) -/

theorem getLsbD_rotateLeft_byte (x : Byte) {k i : Nat} (h0 : 0 < k) (hk : k < 8) (hi : i < 8) :
    (x.rotateLeft k).getLsbD i = x.getLsbD ((i + (8 - k)) % 8) := by
  rw [BitVec.getLsbD_rotateLeft, Nat.mod_eq_of_lt hk]
  by_cases h : i < k
  · have hplace : (i + (8 - k)) % 8 = 8 - k + i := by omega
    simp [h, hplace]
  · have hplace : (i + (8 - k)) % 8 = i - k := by omega
    simp [h, hi, hplace]

theorem affine_getLsbD (x : Byte) (i : Fin 8) : (affine x).getLsbD i.val =
    (x.getLsbD i.val ^^ x.getLsbD ((i.val + 4) % 8) ^^ x.getLsbD ((i.val + 5) % 8) ^^
      x.getLsbD ((i.val + 6) % 8) ^^ x.getLsbD ((i.val + 7) % 8) ^^
      (0x63 : Byte).getLsbD i.val) := by
  simp only [affine, BitVec.getLsbD_xor, getLsbD_rotateLeft_byte x, i.isLt, Nat.reduceLT,
    Nat.reduceSub]
  simp only [Bool.xor_assoc, Bool.xor_comm, Bool.xor_left_comm]

/-- `AFFINE` read backwards: its linear part has the inverse with rotations by 1, 3 and 6. -/
def invAffine (y : Byte) : Byte :=
  y.rotateLeft 1 ^^^ y.rotateLeft 3 ^^^ y.rotateLeft 6 ^^^ 0x05

theorem affine_invAffine (y : Byte) : affine (invAffine y) = y := by
  revert y
  decide +kernel

/-! ### The tables (R95, R96) -/

/-- `AFFINE` undone on the table's entry is an inverse of the index. -/
theorem gmul_invAffine_sbox {a : Byte} (ha : a ≠ 0) : gmul a (invAffine (sbox a)) = 1 := by
  revert a
  decide +kernel

theorem ginv_eq_invAffine_sbox (a : Byte) : ginv a = invAffine (sbox a) := by
  by_cases ha : a = 0
  · subst ha; rfl
  · exact ginv_eq_of_gmul_eq_one ha (gmul_invAffine_sbox ha)

theorem sbox_eq_affine_ginv (a : Byte) : sbox a = affine (ginv a) := by
  rw [ginv_eq_invAffine_sbox, affine_invAffine]

/-- R96's table sends each entry of R95's back to its index. -/
theorem invSbox_sbox : Function.LeftInverse invSbox sbox := by
  unfold Function.LeftInverse
  decide +kernel

theorem sbox_bijective : Function.Bijective sbox :=
  Finite.injective_iff_bijective.1 invSbox_sbox.injective

theorem sbox_invSbox : Function.RightInverse invSbox sbox :=
  invSbox_sbox.rightInverse_of_surjective sbox_bijective.surjective

theorem sbox_ne_self_or_complement (a : Byte) : sbox a ≠ a ∧ sbox a ≠ a ^^^ 0xff := by
  revert a
  decide +kernel

/-! ### The statements about the S-box -/

/-- Settles O20: the two forms of `AFFINE` are `affine_getLsbD` and the definition of a rotation, and the
table is `AFFINE` of `GINV` because undoing `AFFINE` on it gives inverses. -/
theorem sboxIsAffineOfInverse : Obligations.SboxIsAffineOfInverse :=
  ⟨affine_getLsbD, fun _ => rfl, sbox_eq_affine_ginv, sbox_bijective, sbox_ne_self_or_complement⟩

/-- Settles O21: `INVSBOX` undoes `SBOX` entry by entry, and on finitely many bytes a left inverse is a
right inverse. -/
theorem invSboxInvertsSbox : Obligations.InvSboxInvertsSbox := ⟨invSbox_sbox, sbox_invSbox⟩

end Sys2Proof.Machine
end

section
/-! PROOFS. The key schedule (41_key_schedule.md R110 to R117): the round constants, `ExpandKey` and
`RoundKey` as functions, then KEXP and the mode commands, which load `RK`. -/

namespace Sys2Proof.Machine

/-! ### The words of an expansion (R110, R114) -/

theorem expandKey_of_length_ne {k : List Byte} (h : k.length ≠ 16) :
    expandKey k = .error .invalidKeyLength := dif_neg h

theorem expandKey_of_length_eq {k : List Byte} (h : k.length = 16) :
    expandKey k = .ok (expandBlock (toBlock k h)) := dif_pos h

/-- Byte `r` of word `c` of a byte sequence is its byte `4c + r` (R110). -/
theorem cell_toBlock {k : List Byte} (h : k.length = 16) (r c : Fin 4) :
    cell (toBlock k h) r c = k.getD (4 * c.val + r.val) 0 := by
  have hlt : 4 * c.val + r.val < k.length := by omega
  rw [List.getD_eq_getElem k 0 hlt]
  simp [cell, toBlock, Nat.add_comm]

/-- The first four words of an expansion are the key's own (R110). -/
theorem keyWord_fin (k : Block) : ∀ c : Fin 4, keyWord k c.val = column k c
  | 0 => rfl
  | 1 => rfl
  | 2 => rfl
  | 3 => rfl

/-- The recurrence of R114 in its own indices. -/
theorem keyWord_of_four_le (k : Block) {i : Nat} (h : 4 ≤ i) :
    keyWord k i = xorWord (keyWord k (i - 4)) (keyMix i (keyWord k (i - 1))) := by
  obtain ⟨n, rfl⟩ := Nat.exists_eq_add_of_le' h
  exact keyWord_add_four k n

/-! ### A round key as columns (R12, R115) -/

/-- A block is its four columns laid end to end (R12). -/
theorem toList_eq_columns (b : Block) : b.toList = (column b 0).toList ++ (column b 1).toList ++
    (column b 2).toList ++ (column b 3).toList := by
  have hb : b.toList = List.ofFn fun i : Fin 16 => b[i] :=
    (congrArg Vector.toList Vector.ofFn_getElem.symm).trans Vector.toList_ofFn
  have hc (c : Fin 4) : (column b c).toList = List.ofFn fun r => cell b r c := Vector.toList_ofFn
  simp [hb, hc, cell]

/-- Column `c` of round key `rnd` is word `4*rnd + c` of the schedule (R115). -/
theorem column_roundKey (W : Schedule) (rnd : Fin 11) (c : Fin 4) :
    column (roundKey W rnd) c = W[4 * rnd.val + c.val] := by
  ext r hr
  simp [roundKey]

/-- Byte `b` of round key `rnd` is byte `16*rnd + b` of `RK` (R23, R115). -/
theorem roundKey_get (W : Schedule) (rnd : Fin 11) (b : Fin 16) :
    (roundKey W rnd)[b] = rkByte W ⟨16 * rnd.val + b.val, by omega⟩ := by
  have hw : (16 * rnd.val + b.val) / 4 = 4 * rnd.val + b.val / 4 := by omega
  have hb : (16 * rnd.val + b.val) % 4 = b.val % 4 := by omega
  simp [roundKey, ofMatrix, rkByte, hw, hb]

/-- Round key 0 is the key itself (R110). -/
theorem roundKey_zero_expandBlock (k : Block) : roundKey (expandBlock k) 0 = k :=
  block_ext fun r c => by
    rw [← column_get, column_roundKey, ← column_get]
    simp [keyWord_fin]

/-! ### The schedule in `RK` after a command (R116, R117) -/

section commands

variable {s : State} {i : Instr}

/-- InvalidPadding is the result of the work, never of a length check (R207). -/
theorem invalidPadding_not_mem_failingChecks (s : State) (i : Instr) :
    .invalidPadding ∉ s.failingChecks i := by
  cases i <;> simp [State.failingChecks, State.keyErrors, State.blockErrors, State.ciphertextErrors,
    State.ivLengthErrors, State.missingIvErrors]

/-- A length error has a code other than InvalidPadding's. -/
theorem errorCode_lengthError_ne_five {e : ErrorKind} (h : s.lengthError i = some e) :
    errorCode e ≠ 0x05 := by
  have hm := lengthError_mem h
  cases e with
  | invalidPadding => exact absurd hm (invalidPadding_not_mem_failingChecks s i)
  | invalidKeyLength | invalidIVLength | invalidBlockLength | invalidCiphertextLength | missingIV =>
    decide

/-- The work of a mode command keeps the schedule it has loaded, and ends without error or with
InvalidPadding. -/
theorem commandWork_loadsSchedule (s : State) (hi : i.hostLevel = true) :
    (s.commandWork i).rk = expandBlock s.keybuf ∧ (s.commandWork i).ksValid = true ∧
    ((s.commandWork i).errcode = 0 ∨ (s.commandWork i).errcode = 0x05) := by
  cases i with
  | kexp | encb | decb => cases hi
  | ecbe => simp [State.commandWork, ecbeWork]
  | ecbd =>
    rcases ecbdWork_cases s.beginCommand.loadSchedule with ⟨r, -, hw⟩ | ⟨-, hw⟩ <;>
      simp [State.commandWork, hw, errorCode]
  | cfbe => simp [State.commandWork, cfbeWork]
  | cfbd => simp [State.commandWork, cfbdWork]

theorem lengthError_kexp_of_eq (h : s.keyLen = 16) : s.lengthError .kexp = none :=
  lengthError_eq_none.2 (if_pos h)

theorem lengthError_kexp_of_ne (h : s.keyLen ≠ 16) :
    s.lengthError .kexp = some .invalidKeyLength := by
  rw [State.lengthError, State.failingChecks, State.keyErrors, if_neg h, pickError_singleton]

/-- KEXP is always answered (R116). -/
theorem exec_kexp (s : State) :
    exec .kexp s = .next (s.checked .kexp s.beginCommand.loadSchedule.endCommand) :=
  execKexp_eq_next_iff.2 rfl

end commands

/-! ### The statements -/

/-- Settles O23: words 0 to 3 are the columns of the key as a block (`keyWord_fin`), and the loop is
`keyWord_of_four_le`. -/
theorem expandKeyRecurrence : Obligations.ExpandKeyRecurrence := by
  refine ⟨fun k h => expandKey_of_length_ne h, fun k h =>
    ⟨_, expandKey_of_length_eq h, fun j b => ?_, fun i h4 h44 => ?_⟩⟩
  · rw [← cell_toBlock h, ← column_get, ← keyWord_fin]
    simp
  · simpa [keyMix] using keyWord_of_four_le (toBlock k h) h4

/-- Settles O24: a block is its four columns, and those of a round key are words of the schedule. -/
theorem roundKeysAreFourWords : Obligations.RoundKeysAreFourWords := by
  refine ⟨fun W rnd => ?_, roundKey_get, roundKey_zero_expandBlock⟩
  simp only [toList_eq_columns, column_roundKey]
  rfl

/-- Settles O52: a length error has neither code 0 nor InvalidPadding's and leaves RK, and the work of
a mode command (`commandWork_loadsSchedule`) has one of the two codes and has loaded RK. -/
theorem modeCommandsLoadTheSchedule : Obligations.ModeCommandsLoadTheSchedule := by
  intro i s t hi h
  obtain ⟨-, rfl⟩ := exec_eq_next_iff.1 h
  cases he : s.lengthError i with
  | some e =>
    have h0 := errorCode_ne_zero e
    have h5 := errorCode_lengthError_ne_five he
    rw [checked_of_lengthError _ he]
    refine ⟨fun hc => ?_, fun _ _ => ⟨by simp, by simp⟩⟩
    rw [raiseError_errcode] at hc
    exact (hc.elim h0 h5).elim
  | none =>
    obtain ⟨hrk, hks, herr⟩ := commandWork_loadsSchedule s hi
    rw [checked_of_passed _ he]
    exact ⟨fun _ => ⟨hrk, hks⟩, fun h0 h5 => (herr.elim h0 h5).elim⟩

/-- Settles O22: `rcByte` is R113's recursion, and the table its first ten values. -/
theorem roundConstants : Obligations.RoundConstants := by
  refine ⟨rfl, fun j h2 _ => ?_, by decide, fun _ _ _ => rfl⟩
  obtain ⟨n, rfl⟩ := Nat.exists_eq_add_of_le' h2
  rfl

/-- Settles O38: KEXP is always answered, and the key length alone decides which of its two ends it
takes. -/
theorem kexpExpandsTheKey : Obligations.KexpExpandsTheKey := by
  refine fun s => ⟨fun h => ?_, fun h => ?_⟩
  · rw [exec_kexp, checked_of_passed _ (lengthError_kexp_of_eq h)]
    exact ⟨_, _, by dsimp only [State.beginCommand, State.loadSchedule, State.endCommand,
      State.keyOperand]⟩
  · rw [exec_kexp, checked_of_lengthError _ (lengthError_kexp_of_ne h)]
    exact ⟨_, _, rfl⟩

end Sys2Proof.Machine
end

section
/-! PROOFS. The round stages (42_round_transforms.md R126 to R134). Each stage has one rule for the cells of
its result, and blocks with equal cells are equal. `MixColumns` and `InvMixColumns` are matrix products
with the field's operations, so they undo each other because the two matrices are inverse. -/

namespace Sys2Proof.Machine

/-! ### The cells of the byte-by-byte stages and of the row shifts (R12, R126 to R131) -/

@[simp] theorem cell_map (f : Byte → Byte) (b : Block) (r c : Fin 4) :
    cell (b.map f) r c = f (cell b r c) := by
  simp [cell]

@[simp] theorem cell_subBytes (b : Block) (r c : Fin 4) :
    cell (subBytes b) r c = sbox (cell b r c) := cell_map sbox b r c

@[simp] theorem cell_invSubBytes (b : Block) (r c : Fin 4) :
    cell (invSubBytes b) r c = invSbox (cell b r c) := cell_map invSbox b r c

@[simp] theorem cell_xorBlock (a b : Block) (r c : Fin 4) :
    cell (xorBlock a b) r c = cell a r c ^^^ cell b r c := by
  simp [cell, xorBlock]

@[simp] theorem cell_shiftRows (b : Block) (r c : Fin 4) :
    cell (shiftRows b) r c = cell b r (c + r) := cell_ofMatrix _ r c

@[simp] theorem cell_invShiftRows (b : Block) (r c : Fin 4) :
    cell (invShiftRows b) r c = cell b r (c - r) := cell_ofMatrix _ r c

@[simp] theorem cell_addRoundKey (b k : Block) (r c : Fin 4) :
    cell (addRoundKey b k) r c = cell b r c ^^^ cell k r c := cell_xorBlock b k r c

/-- Byte `i` of a matrix given by its cells' places in `b` is the byte of `b` at that place. -/
theorem ofMatrix_get_eq {b : Block} {col : Fin 4 → Fin 4 → Fin 4} {i j : Fin 16}
    (h : i.val % 4 + 4 * (col ⟨i.val % 4, by omega⟩ ⟨i.val / 4, by omega⟩).val = j.val) :
    (ofMatrix fun r c => cell b r (col r c))[i] = b[j] := by
  simp only [Fin.getElem_fin, ofMatrix, Vector.getElem_ofFn, cell]
  exact getElem_congr_idx h

/-! ### Products with a matrix over the field -/

/-- The product with 1, the literal as `simp` writes it. -/
@[simp] theorem gmul_one_literal (b : Byte) : gmul 1#8 b = b := gmul_one_left b

/-- The product with 0, the literals as `simp` writes them. -/
@[simp] theorem gmul_zero_literal (b : Byte) : gmul 0#8 b = 0#8 :=
  (xtimeLinear_gmul_right b).map_zero

theorem gmul_xor_right (a b c : Byte) : gmul a (b ^^^ c) = gmul a b ^^^ gmul a c := by
  simp only [gmul_comm a, gmul_xor_left]

/-- A row times a column, with `GMUL` as product and exclusive-or as sum. -/
def rowDot (m x : Fin 4 → Byte) : Byte :=
  gmul (m 0) (x 0) ^^^ gmul (m 1) (x 1) ^^^ gmul (m 2) (x 2) ^^^ gmul (m 3) (x 3)

theorem rowDot_xor (m x y : Fin 4 → Byte) :
    rowDot m (fun k => x k ^^^ y k) = rowDot m x ^^^ rowDot m y := by
  simp only [rowDot, gmul_xor_right]
  ac_rfl

/-- A row times a column of four equal bytes is the sum of the row times that byte. -/
theorem rowDot_const (m : Fin 4 → Byte) (x : Byte) :
    rowDot m (fun _ => x) = gmul (m 0 ^^^ m 1 ^^^ m 2 ^^^ m 3) x := by
  simp only [rowDot, gmul_xor_left]

/-- The product of matrices is associative: `m * (B * x) = (m * B) * x`. -/
theorem rowDot_rowDot (m : Fin 4 → Byte) (B : Fin 4 → Fin 4 → Byte) (x : Fin 4 → Byte) :
    rowDot m (fun k => rowDot (B k) x) = rowDot (fun c => rowDot m (B · c)) x := by
  simp only [rowDot, gmul_xor_left, gmul_xor_right, gmul_assoc]
  ac_rfl

/-- A row of the identity selects an entry of the column. -/
theorem rowDot_identity (x : Fin 4 → Byte) :
    ∀ r : Fin 4, rowDot (fun c => if r = c then 1 else 0) x = x r
  | 0 | 1 | 2 | 3 => by simp [rowDot]

/-- A matrix undoes the product with another when their product is the identity. -/
theorem rowDot_cancel {A B : Fin 4 → Fin 4 → Byte}
    (h : ∀ r c, rowDot (A r) (B · c) = if r = c then 1 else 0) (x : Fin 4 → Byte) (r : Fin 4) :
    rowDot (A r) (fun k => rowDot (B k) x) = x r := by
  rw [rowDot_rowDot, funext (h r), rowDot_identity]

/-! ### The matrices `M` and `M'` (R128, R132) -/

/-- The matrix `M` of R128, by rows. -/
def mixMatrix : Fin 4 → Fin 4 → Byte := ![![2, 3, 1, 1], ![1, 2, 3, 1], ![1, 1, 2, 3], ![3, 1, 1, 2]]

/-- The matrix `M'` of R132, by rows. -/
def invMixMatrix : Fin 4 → Fin 4 → Byte :=
  ![![0x0e, 0x0b, 0x0d, 0x09], ![0x09, 0x0e, 0x0b, 0x0d], ![0x0d, 0x09, 0x0e, 0x0b],
    ![0x0b, 0x0d, 0x09, 0x0e]]

theorem mixColumn_get (a : Word) : ∀ r : Fin 4, (mixColumn a)[r] = rowDot (mixMatrix r) (a[·])
  | 0 | 1 | 2 | 3 => by simp [mixColumn, rowDot, mixMatrix]

theorem invMixColumn_get (a : Word) :
    ∀ r : Fin 4, (invMixColumn a)[r] = rowDot (invMixMatrix r) (a[·])
  | 0 | 1 | 2 | 3 => by simp [invMixColumn, rowDot, invMixMatrix]

@[simp] theorem cell_mixColumns (b : Block) (r c : Fin 4) :
    cell (mixColumns b) r c = rowDot (mixMatrix r) (cell b · c) := by
  simp only [mixColumns, cell_ofMatrix, mixColumn_get, column_get]

@[simp] theorem cell_invMixColumns (b : Block) (r c : Fin 4) :
    cell (invMixColumns b) r c = rowDot (invMixMatrix r) (cell b · c) := by
  simp only [invMixColumns, cell_ofMatrix, invMixColumn_get, column_get]

/-- `M' * M` is the identity. -/
theorem invMixMatrix_mul_mixMatrix : ∀ r c : Fin 4,
    rowDot (invMixMatrix r) (mixMatrix · c) = if r = c then 1 else 0 := by decide

/-- `M * M'` is the identity. -/
theorem mixMatrix_mul_invMixMatrix : ∀ r c : Fin 4,
    rowDot (mixMatrix r) (invMixMatrix · c) = if r = c then 1 else 0 := by decide

/-! ### Four equal bytes (R128, R132) -/

/-- A map of words whose entries are products with rows of sum 1 keeps a word of four equal bytes. -/
theorem const_word_fixed {f : Word → Word} {A : Fin 4 → Fin 4 → Byte}
    (hf : ∀ (a : Word) (r : Fin 4), (f a)[r] = rowDot (A r) (a[·]))
    (hA : ∀ r, A r 0 ^^^ A r 1 ^^^ A r 2 ^^^ A r 3 = 1) (x : Byte) :
    f #v[x, x, x, x] = #v[x, x, x, x] := by
  have hx : ∀ r : Fin 4, (#v[x, x, x, x] : Word)[r] = x
    | 0 | 1 | 2 | 3 => rfl
  refine Vector.ext fun r hr => ?_
  have hentry := hf #v[x, x, x, x] ⟨r, hr⟩
  rw [funext hx, rowDot_const, hA, gmul_one_left] at hentry
  exact hentry.trans (hx ⟨r, hr⟩).symm

/-! ### Linearity (R128, R132) -/

theorem mixColumns_xorBlock (a b : Block) :
    mixColumns (xorBlock a b) = xorBlock (mixColumns a) (mixColumns b) :=
  block_ext fun r c => by simp [rowDot_xor]

theorem invMixColumns_xorBlock (a b : Block) :
    invMixColumns (xorBlock a b) = xorBlock (invMixColumns a) (invMixColumns b) :=
  block_ext fun r c => by simp [rowDot_xor]

/-! ### The stages undo each other (R134) -/

@[simp] theorem invSubBytes_subBytes (b : Block) : invSubBytes (subBytes b) = b :=
  block_ext fun r c => by simp [invSbox_sbox _]

@[simp] theorem subBytes_invSubBytes (b : Block) : subBytes (invSubBytes b) = b :=
  block_ext fun r c => by simp [sbox_invSbox _]

@[simp] theorem invShiftRows_shiftRows (b : Block) : invShiftRows (shiftRows b) = b :=
  block_ext fun r c => by rw [cell_invShiftRows, cell_shiftRows, sub_add_cancel]

@[simp] theorem shiftRows_invShiftRows (b : Block) : shiftRows (invShiftRows b) = b :=
  block_ext fun r c => by rw [cell_shiftRows, cell_invShiftRows, add_sub_cancel_right]

@[simp] theorem invMixColumns_mixColumns (b : Block) : invMixColumns (mixColumns b) = b :=
  block_ext fun r c => by simp [rowDot_cancel invMixMatrix_mul_mixMatrix]

@[simp] theorem mixColumns_invMixColumns (b : Block) : mixColumns (invMixColumns b) = b :=
  block_ext fun r c => by simp [rowDot_cancel mixMatrix_mul_invMixMatrix]

@[simp] theorem addRoundKey_addRoundKey (b k : Block) : addRoundKey (addRoundKey b k) k = b :=
  block_ext fun r c => by
    rw [cell_addRoundKey, cell_addRoundKey, BitVec.xor_assoc, BitVec.xor_self, BitVec.xor_zero]

/-- The substitution of a byte does not depend on its place. -/
theorem subBytes_shiftRows (b : Block) : subBytes (shiftRows b) = shiftRows (subBytes b) :=
  block_ext fun r c => by simp only [cell_subBytes, cell_shiftRows]

theorem invSubBytes_invShiftRows (b : Block) :
    invSubBytes (invShiftRows b) = invShiftRows (invSubBytes b) :=
  block_ext fun r c => by simp only [cell_invSubBytes, cell_invShiftRows]

/-! ### The statements -/

/-- Settles O25: both stages take each cell from a place of the same row, and the places of the sixteen
bytes are the two tables. -/
theorem shiftRowsIndexTables : Obligations.ShiftRowsIndexTables :=
  ⟨fun _ i => ofMatrix_get_eq (by revert i; decide), fun _ i => ofMatrix_get_eq (by revert i; decide)⟩

/-- Settles O26: entry by entry both stages are `rowDot` with a row of the matrix, and the rows of both
matrices have the sum 1. -/
theorem mixColumnsIsTheMatrixProduct : Obligations.MixColumnsIsTheMatrixProduct :=
  ⟨cell_mixColumns, cell_invMixColumns, invMixMatrix_mul_mixMatrix,
    fun a b => ⟨mixColumns_xorBlock a b, invMixColumns_xorBlock a b⟩,
    fun x => ⟨const_word_fixed mixColumn_get (by decide) x,
      const_word_fixed invMixColumn_get (by decide) x⟩⟩

/-- Settles O27, each identity cell by cell: the S-boxes and the two matrices are inverse, and the row
shifts add and subtract the row number. -/
theorem stageInverses : Obligations.StageInverses := fun b k =>
  ⟨invSubBytes_subBytes b, subBytes_invSubBytes b, invShiftRows_shiftRows b, shiftRows_invShiftRows b,
    invMixColumns_mixColumns b, mixColumns_invMixColumns b, addRoundKey_addRoundKey b k,
    subBytes_shiftRows b, invSubBytes_invShiftRows b⟩

end Sys2Proof.Machine
end

section
/-! PROOFS. The block cipher (43_block_cipher.md R145 to R149): a middle round of decryption undoes the
same round of encryption under any round key, so the folds over the rounds undo each other; then ENCB and
DECB, which differ in the block function only. -/

namespace Sys2Proof.Machine

/-! ### The block functions on byte sequences (R145, R146) -/

section byteSequences

variable {p : List Byte} (W : Schedule)

theorem toBlock_eq_blockAt (h : p.length = 16) : toBlock p h = blockAt p 0 := by
  ext i hi : 1
  simp [toBlock, blockAt, h]

theorem encryptBlock_of_length_ne (h : p.length ≠ 16) :
    encryptBlock p W = .error .invalidBlockLength := dif_neg h

theorem decryptBlock_of_length_ne (h : p.length ≠ 16) :
    decryptBlock p W = .error .invalidBlockLength := dif_neg h

theorem encryptBlock_of_length_eq (h : p.length = 16) :
    encryptBlock p W = .ok (encrypt W (blockAt p 0)) := by
  rw [encryptBlock, dif_pos h, toBlock_eq_blockAt h]

theorem decryptBlock_of_length_eq (h : p.length = 16) :
    decryptBlock p W = .ok (decrypt W (blockAt p 0)) := by
  rw [decryptBlock, dif_pos h, toBlock_eq_blockAt h]

end byteSequences

/-! ### The state after each round (R145, R146) -/

/-- The middle rounds run upwards: round `rnd` comes after rounds 1 to `rnd - 1`. -/
theorem take_middleRounds : ∀ rnd : Fin 11, 1 ≤ rnd.val → rnd.val ≤ 9 →
    middleRounds.take rnd.val = middleRounds.take (rnd.val - 1) ++ [rnd] := by decide

/-- Backwards, round `rnd` comes after rounds 9 to `rnd + 1`. -/
theorem take_reverse_middleRounds : ∀ rnd : Fin 11, 1 ≤ rnd.val → rnd.val ≤ 9 →
    middleRounds.reverse.take (10 - rnd.val) =
      middleRounds.reverse.take (10 - (rnd.val + 1)) ++ [rnd] := by decide

/-- The state of encryption after round `n`; round 0 is the first key-add. -/
def encState (W : Schedule) (p : Block) (n : Nat) : Block :=
  (middleRounds.take n).foldl (encRound W) (addRoundKey p (roundKey W 0))

/-- The state of decryption once round `n` is undone; round 10 is the last of encryption. -/
def decState (W : Schedule) (q : Block) (n : Nat) : Block :=
  (middleRounds.reverse.take (10 - n)).foldl (decRound W)
    (invSubBytes (invShiftRows (addRoundKey q (roundKey W 10))))

section rounds

variable (W : Schedule) (b : Block) {rnd : Fin 11}

theorem encState_round (h1 : 1 ≤ rnd.val) (h9 : rnd.val ≤ 9) :
    encState W b rnd.val = encRound W (encState W b (rnd.val - 1)) rnd := by
  rw [encState, take_middleRounds rnd h1 h9, List.foldl_append]
  rfl

theorem decState_round (h1 : 1 ≤ rnd.val) (h9 : rnd.val ≤ 9) :
    decState W b rnd.val = decRound W (decState W b (rnd.val + 1)) rnd := by
  rw [decState, take_reverse_middleRounds rnd h1 h9, List.foldl_append]
  rfl

/-- Encryption ends with a round without `MixColumns` (R145 step 3). -/
theorem encrypt_eq_encState :
    encrypt W b = addRoundKey (shiftRows (subBytes (encState W b 9))) (roundKey W 10) := rfl

/-- Decryption ends with the key-add that undoes the first one (R146). -/
theorem decrypt_eq_decState : decrypt W b = addRoundKey (decState W b 1) (roundKey W 0) := rfl

/-! ### Decryption undoes encryption, round by round (R149) -/

theorem decRound_encRound (rnd : Fin 11) : decRound W (encRound W b rnd) rnd = b := by
  simp only [decRound, encRound, addRoundKey_addRoundKey, invMixColumns_mixColumns,
    invShiftRows_shiftRows, invSubBytes_subBytes]

theorem encRound_decRound (rnd : Fin 11) : encRound W (decRound W b rnd) rnd = b := by
  simp only [decRound, encRound, subBytes_invSubBytes, shiftRows_invShiftRows,
    mixColumns_invMixColumns, addRoundKey_addRoundKey]

end rounds

/-- A fold is undone by folding the reversed list with a function that undoes each step. -/
theorem foldl_reverse_foldl_cancel {α β : Type} {f g : β → α → β} (h : ∀ x a, g (f x a) a = x)
    (l : List α) (x : β) : l.reverse.foldl g (l.foldl f x) = x := by
  induction l generalizing x with
  | nil => rfl
  | cons a l ih =>
    rw [List.foldl_cons, List.reverse_cons, List.foldl_append, ih]
    exact h x a

theorem decrypt_encrypt (W : Schedule) (b : Block) : decrypt W (encrypt W b) = b := by
  simp only [decrypt, encrypt, addRoundKey_addRoundKey, invShiftRows_shiftRows,
    invSubBytes_subBytes, foldl_reverse_foldl_cancel (decRound_encRound W)]

theorem encrypt_decrypt (W : Schedule) (b : Block) : encrypt W (decrypt W b) = b := by
  have hrounds := foldl_reverse_foldl_cancel (encRound_decRound W) middleRounds.reverse
  rw [List.reverse_reverse] at hrounds
  simp only [encrypt, decrypt, addRoundKey_addRoundKey, hrounds, subBytes_invSubBytes,
    shiftRows_invShiftRows]

/-! ### The block commands (R147, R148) -/

section commands

variable {s : State} {i : Instr} {f : Schedule → Block → Block}

/-- A block as the result: `DOUT_LEN` is 16 (R39). -/
theorem deliver_block (s : State) (b : Block) :
    s.deliver b.toList = { s with dout := b.toList, doutLen := 16 } := by
  rw [State.deliver, Vector.length_toList]
  rfl

/-- A data command that raises has no result (R208). -/
theorem raiseError_of_isDataCommand (s : State) (e : ErrorKind) (hi : isDataCommand i = true) :
    s.raiseError i e = ({ s with errcode := errorCode e }.deliver []).endCommand := by
  rw [State.raiseError, if_pos hi]

theorem blockCommand_of_schedule (hk : s.ksValid = true) :
    blockCommand i f s = .next
      (s.checked i (s.beginCommand.deliver (f s.rk s.blockOperand).toList).endCommand) :=
  blockCommand_eq_next_iff.2 ⟨hk, rfl⟩

theorem blockCommand_of_no_schedule (hk : s.ksValid = false) :
    blockCommand i f s = .refused .noSchedule := by
  simp [blockCommand, hk]

theorem lengthError_block_of_eq (hc : s.failingChecks i = s.blockErrors) (h : s.dinLen = 16) :
    s.lengthError i = none :=
  lengthError_eq_none.2 (hc.trans (if_pos h))

theorem lengthError_block_of_ne (hc : s.failingChecks i = s.blockErrors) (h : s.dinLen ≠ 16) :
    s.lengthError i = some .invalidBlockLength := by
  rw [State.lengthError, hc, State.blockErrors, if_neg h, pickError_singleton]

/-- What a command answers that has the block-length check only and runs one block through `f`. -/
theorem blockCommand_answers (hc : s.failingChecks i = s.blockErrors)
    (hi : isDataCommand i = true) :
    (s.ksValid = true → s.dinLen = 16 → ∃ (w : Work) (n : Nat), blockCommand i f s = .next
      { s with errcode := 0, dout := (f s.rk s.blockOperand).toList, doutLen := 16, done := true,
               work := w, free := n }) ∧
    (s.ksValid = true → s.dinLen ≠ 16 → ∃ (w : Work) (n : Nat), blockCommand i f s = .next
      { s with errcode := 0x03, dout := [], doutLen := 0, done := true, work := w, free := n }) ∧
    (s.ksValid = false → blockCommand i f s = .refused .noSchedule) := by
  refine ⟨fun hk h => ?_, fun hk h => ?_, blockCommand_of_no_schedule⟩
  · rw [blockCommand_of_schedule hk, checked_of_passed _ (lengthError_block_of_eq hc h),
      deliver_block]
    exact ⟨_, _, rfl⟩
  · rw [blockCommand_of_schedule hk, checked_of_lengthError _ (lengthError_block_of_ne hc h),
      raiseError_of_isDataCommand _ _ hi]
    exact ⟨_, _, rfl⟩

end commands

/-! ### The statements -/

/-- Settles O28: the states are `encState` and `decState`, each round one step of the fold. -/
theorem blockFunctionsFollowTheRounds : Obligations.BlockFunctionsFollowTheRounds := by
  refine fun p W => ⟨fun h => ⟨encryptBlock_of_length_ne W h, decryptBlock_of_length_ne W h⟩,
    fun h => ⟨encState W (blockAt p 0), rfl, fun _ h1 h9 => encState_round W _ h1 h9, ?_⟩,
    fun h => ⟨decState W (blockAt p 0), rfl, fun _ h1 h9 => decState_round W _ h1 h9, ?_⟩⟩
  · rw [encryptBlock_of_length_eq W h, encrypt_eq_encState]
  · rw [decryptBlock_of_length_eq W h, decrypt_eq_decState]

/-- Settles O30: every stage is undone, whatever the 44 words are. -/
theorem blockCipherRoundTrip : Obligations.BlockCipherRoundTrip :=
  fun W b => ⟨decrypt_encrypt W b, encrypt_decrypt W b⟩

/-- Settles O39: ENCB is the block command of `encrypt`. -/
theorem encbEncryptsTheBlock : Obligations.EncbEncryptsTheBlock :=
  fun _ => blockCommand_answers (i := .encb) (f := encrypt) rfl rfl

/-- Settles O40: DECB is the block command of `decrypt`. -/
theorem decbDecryptsTheBlock : Obligations.DecbDecryptsTheBlock :=
  fun _ => blockCommand_answers (i := .decb) (f := decrypt) rfl rfl

end Sys2Proof.Machine
end

section
/-! PROOFS. Padding and the ECB mode (44_ecb_mode.md R160 to R168). Two rules carry the ECB functions:
block `j` after the block loop is the function of block `j` before it (`blockAt_mapBlocks`), and a
sequence of whole blocks is known by its blocks (`eq_of_blockAt_eq`). Then what any mode command answers,
and ECBE and ECBD. -/

namespace Sys2Proof.Machine

/-! ### Padding (R160, R161) -/

theorem padCount_range (len : Nat) : 1 ≤ padCount len ∧ padCount len ≤ 16 := by
  unfold padCount
  omega

@[simp] theorem length_pad (p : List Byte) : (pad p).length = 16 * (p.length / 16 + 1) := by
  rw [pad, List.length_append, List.length_replicate, padCount]
  omega

/-- `Unpad` removes `n` bytes of value `n` (R161). -/
theorem unpad_append_replicate (r : List Byte) {n : Nat} (h1 : 1 ≤ n) (h16 : n ≤ 16) :
    unpad (r ++ List.replicate n (BitVec.ofNat 8 n)) = .ok r := by
  have hlast : (r ++ List.replicate n (BitVec.ofNat 8 n)).getLastD 0 = BitVec.ofNat 8 n := by
    obtain ⟨m, rfl⟩ := Nat.exists_eq_add_of_le' h1
    rw [List.replicate_succ', ← List.append_assoc, List.getLastD_concat]
  have hn : (BitVec.ofNat 8 n).toNat = n := by
    rw [BitVec.toNat_ofNat]
    omega
  simp only [unpad, hlast, hn]
  rw [if_neg (by omega), List.length_append, List.length_replicate, Nat.add_sub_cancel,
    List.drop_left, List.take_left, if_pos]
  simp [hn]

/-- Where the sequence is long enough for its padding, that is all that `Unpad` accepts (R161). -/
theorem eq_append_replicate_of_unpad {q r : List Byte} (hq : 16 ≤ q.length)
    (h : unpad q = .ok r) :
    ∃ n : Nat, 1 ≤ n ∧ n ≤ 16 ∧ q = r ++ List.replicate n (BitVec.ofNat 8 n) := by
  simp only [unpad] at h
  generalize (q.getLastD 0).toNat = n at h
  split at h
  case isTrue => cases h
  case isFalse hrange =>
    split at h
    case isFalse => cases h
    case isTrue hall =>
      cases h
      have hdrop : q.drop (q.length - n) = List.replicate n (BitVec.ofNat 8 n) := by
        refine List.eq_replicate_iff.2 ⟨by rw [List.length_drop]; omega, fun b hb => ?_⟩
        rw [← eq_of_beq (List.all_eq_true.1 hall b hb), BitVec.ofNat_toNat, BitVec.setWidth_eq]
      refine ⟨n, by omega, by omega, ?_⟩
      rw [← hdrop, List.take_append_drop]

/-- Where `Unpad` gives nothing it reports InvalidPadding (R161). -/
theorem unpad_eq_invalidPadding {q : List Byte} (hno : ∀ r, unpad q ≠ .ok r) :
    unpad q = .error .invalidPadding := by
  cases hu : unpad q with
  | ok r => exact absurd hu (hno r)
  | error e => rw [unpad_error hu]

theorem unpad_pad (p : List Byte) : unpad (pad p) = .ok p := by
  obtain ⟨h1, h16⟩ := padCount_range p.length
  exact unpad_append_replicate p h1 h16

/-- Settles O31: `Unpad` removes `n` bytes of value `n` and accepts nothing else, and it has one way to
fail. -/
theorem paddingIsPkcs7 : Obligations.PaddingIsPkcs7 := by
  refine ⟨fun p => ?_, fun q r hq _ => ⟨eq_append_replicate_of_unpad hq, ?_⟩,
    fun _ _ _ => unpad_eq_invalidPadding, unpad_pad⟩
  · obtain ⟨h1, h16⟩ := padCount_range p.length
    exact ⟨padCount p.length, h1, h16, rfl, rfl, length_pad p⟩
  · rintro ⟨n, h1, h16, rfl⟩
    exact unpad_append_replicate r h1 h16

/-! ### The block loop (R162, R163, R166) -/

/-- The first block of a sequence that begins with the bytes of `b`. -/
theorem blockAt_append_zero (b : Block) (q : List Byte) : blockAt (b.toList ++ q) 0 = b := by
  ext i hi : 1
  have hlt : i < b.toList.length := by rwa [Vector.length_toList]
  simp [blockAt, List.getElem?_append_left hlt, hi]

/-- The later blocks of a sequence that begins with the bytes of `b`. -/
theorem blockAt_append_succ (b : Block) (q : List Byte) (j : Nat) :
    blockAt (b.toList ++ q) (j + 1) = blockAt q j := by
  ext i hi : 1
  have hle : b.toList.length ≤ 16 * (j + 1) + i := by rw [Vector.length_toList]; omega
  have hsub : 16 * (j + 1) + i - 16 = 16 * j + i := by omega
  simp only [blockAt, Vector.getElem_ofFn]
  rw [List.getD_append_right _ _ _ _ hle, Vector.length_toList, hsub]

/-- Block `j` of blocks laid end to end. -/
theorem blockAt_flatMap_toList (l : List Block) {j : Nat} (hj : j < l.length) :
    blockAt (l.flatMap Vector.toList) j = l[j] := by
  induction l generalizing j with
  | nil => cases hj
  | cons b l ih =>
    rw [List.flatMap_cons]
    cases j with
    | zero => exact blockAt_append_zero b _
    | succ j => exact (blockAt_append_succ b _ j).trans (ih (Nat.lt_of_succ_lt_succ hj))

/-- Block `j` of the result of the block loop depends on block `j` of the operand only (R166). -/
theorem blockAt_mapBlocks (f : Block → Block) {q : List Byte} {j : Nat} (hj : j < q.length / 16) :
    blockAt (mapBlocks f q) j = f (blockAt q j) := by
  have hjoin : mapBlocks f q =
      ((List.range (q.length / 16)).map fun j => f (blockAt q j)).flatMap Vector.toList := by
    rw [mapBlocks, List.flatMap_map]
  rw [hjoin, blockAt_flatMap_toList _ (by simpa using hj)]
  simp

/-- Sequences of whole blocks are equal when they are as long and have the same blocks. -/
theorem eq_of_blockAt_eq {q q' : List Byte} (hlen : q.length = q'.length)
    (hwhole : q.length % 16 = 0) (h : ∀ j < q.length / 16, blockAt q j = blockAt q' j) : q = q' := by
  refine List.ext_getElem hlen fun i hi hi' => ?_
  have hbyte := congrArg (fun b : Block => b[i % 16]) (h (i / 16) (by omega))
  have hindex : 16 * (i / 16) + i % 16 = i := Nat.div_add_mod i 16
  simpa [blockAt, hindex, hi, hi'] using hbyte

/-- The block loop of a function is undone by the block loop of a function that undoes it. -/
theorem mapBlocks_mapBlocks_cancel {f g : Block → Block} (hgf : ∀ b, g (f b) = b) {q : List Byte}
    (hwhole : q.length % 16 = 0) : mapBlocks g (mapBlocks f q) = q := by
  have hlen : (mapBlocks f q).length = q.length := by rw [length_mapBlocks]; omega
  have hlen' : (mapBlocks g (mapBlocks f q)).length = q.length := by rw [length_mapBlocks]; omega
  refine eq_of_blockAt_eq hlen' (by omega) fun j hj => ?_
  rw [blockAt_mapBlocks g (by omega), blockAt_mapBlocks f (by omega), hgf]

/-! ### The ECB functions (R162, R163) -/

@[simp] theorem length_ecbEncryptWith (W : Schedule) (p : List Byte) :
    (ecbEncryptWith W p).length = 16 * (p.length / 16 + 1) := by
  rw [ecbEncryptWith, length_mapBlocks, length_pad]
  omega

/-- Decryption gives back the padded plaintext (R149, R168). -/
theorem ecbDecryptWith_ecbEncryptWith (W : Schedule) (p : List Byte) :
    ecbDecryptWith W (ecbEncryptWith W p) = pad p :=
  mapBlocks_mapBlocks_cancel (decrypt_encrypt W) (by rw [length_pad]; omega)

section functions

variable {k : List Byte} (hk : k.length = 16)

theorem ecbEncrypt_of_length_eq (p : List Byte) :
    ecbEncrypt p k = .ok (ecbEncryptWith (expandBlock (toBlock k hk)) p) := by
  rw [ecbEncrypt, expandKey_of_length_eq hk]

/-- With a good key, a ciphertext of a legal length is decrypted and unpadded (R163). -/
theorem ecbDecrypt_of_length_eq {c : List Byte} (h0 : c.length ≠ 0) (hwhole : c.length % 16 = 0) :
    ecbDecrypt c k = unpad (ecbDecryptWith (expandBlock (toBlock k hk)) c) := by
  rw [ecbDecrypt, expandKey_of_length_eq hk]
  exact if_neg (by omega)

end functions

/-- Settles O32: the block loop takes each block of the padded plaintext through `encrypt` alone. -/
theorem ecbBlocksAreIndependent : Obligations.EcbBlocksAreIndependent := fun W p =>
  ⟨(length_ecbEncryptWith W p).trans (length_pad p).symm, fun _ hj => blockAt_mapBlocks (encrypt W) hj⟩

/-- Settles O33: the ciphertext has a legal length, decrypts to the padded plaintext, and `Unpad` undoes
`Pad`. -/
theorem ecbRoundTrip : Obligations.EcbRoundTrip := by
  intro k p hk
  refine ⟨_, ecbEncrypt_of_length_eq hk p, ?_⟩
  rw [ecbDecrypt_of_length_eq hk (by simp) (by simp), ecbDecryptWith_ecbEncryptWith, unpad_pad]

/-! ### What a mode command answers (R38, R117, R208) -/

section modeCommand

variable {s : State} {i : Instr} {work : State → State}

theorem dataOperand_eq_map (s : State) :
    s.dataOperand = (List.range s.dinLen.toNat).map s.dinByte := by
  simp [State.dataOperand, State.memRead, State.bufferByte]

/-- Data longer than the buffer is refused (R38). -/
theorem modeCommand_of_not_fits (h : s.params.dinCap < s.dinLen.toNat) :
    modeCommand i work s = .refused .dataLongerThanBuffer := by
  simp [modeCommand, State.dinFits, h]

/-- A mode command whose length checks pass does its work with the schedule loaded (R117). -/
theorem modeCommand_of_passed (hfit : s.dinLen.toNat ≤ s.params.dinCap)
    (h : s.lengthError i = none) :
    modeCommand i work s = .next (work s.beginCommand.loadSchedule) :=
  modeCommand_eq_next_iff.2 ⟨hfit, checked_of_passed _ h⟩

/-- A mode command with a length error leaves the code of the error and no result, and `RK` as it was
(R208). -/
theorem modeCommand_of_lengthError {e : ErrorKind} (hi : isDataCommand i = true)
    (hfit : s.dinLen.toNat ≤ s.params.dinCap) (h : s.lengthError i = some e) :
    ∃ (w : Work) (n : Nat), modeCommand i work s = .next
      { s with errcode := errorCode e, dout := [], doutLen := 0, done := true, work := w,
               free := n } := by
  rw [modeCommand_eq_next_iff.2 ⟨hfit, checked_of_lengthError _ h⟩,
    raiseError_of_isDataCommand _ _ hi]
  exact ⟨_, _, rfl⟩

/-- The state a mode command leaves that has loaded the schedule and delivers `r`. -/
theorem loadSchedule_deliver_endCommand (s : State) (r : List Byte) :
    ∃ (w : Work) (n : Nat), (s.beginCommand.loadSchedule.deliver r).endCommand =
      { s with errcode := 0, rk := expandBlock s.keybuf, ksValid := true, dout := r,
               doutLen := BitVec.ofNat 32 r.length, done := true, work := w, free := n } :=
  ⟨_, _, by dsimp only [State.beginCommand, State.loadSchedule, State.keyOperand, State.deliver,
    State.endCommand]⟩

/-- The state a data command leaves that has loaded the schedule and raises `e`. -/
theorem loadSchedule_raiseError (s : State) (e : ErrorKind) (hi : isDataCommand i = true) :
    ∃ (w : Work) (n : Nat), s.beginCommand.loadSchedule.raiseError i e =
      { s with errcode := errorCode e, rk := expandBlock s.keybuf, ksValid := true, dout := [],
               doutLen := 0, done := true, work := w, free := n } := by
  rw [raiseError_of_isDataCommand _ _ hi]
  exact ⟨_, _, by dsimp only [State.beginCommand, State.loadSchedule, State.keyOperand, State.deliver,
    State.endCommand, List.length_nil, BitVec.ofNat_eq_ofNat]⟩

end modeCommand

/-! ### ECBE and ECBD (R164, R165) -/

section ecb

variable {s : State}

/-- ECBE has the length check of KEXP only (R207). -/
theorem lengthError_ecbe (s : State) : s.lengthError .ecbe = s.lengthError .kexp := rfl

theorem lengthError_ecbe_of_keyLen_ne (hk : s.keyLen ≠ 16) :
    s.lengthError .ecbe = some .invalidKeyLength :=
  (lengthError_ecbe s).trans (lengthError_kexp_of_ne hk)

/-- Under `ERR_ORDER = fixed` a bad key length comes before the ciphertext length (R165, R207). -/
theorem lengthError_ecbd_of_keyLen_ne (ho : s.params.errOrder = .fixed) (hk : s.keyLen ≠ 16) :
    s.lengthError .ecbd = some .invalidKeyLength := by
  rw [lengthError_fixed ho, State.failingChecks, State.keyErrors, if_neg hk]
  rfl

/-- With a good key length only the ciphertext length is left to check (R207). -/
theorem failingChecks_ecbd_of_keyLen_eq (hk : s.keyLen = 16) :
    s.failingChecks .ecbd = s.ciphertextErrors := by
  rw [State.failingChecks, State.keyErrors, if_pos hk, List.nil_append]

theorem lengthError_ecbd_of_bad_length (hk : s.keyLen = 16)
    (hbad : s.dinLen = 0 ∨ s.dinLen.toNat % 16 ≠ 0) :
    s.lengthError .ecbd = some .invalidCiphertextLength := by
  have hbad' : s.dinLen.toNat = 0 ∨ s.dinLen.toNat % 16 ≠ 0 :=
    hbad.imp_left fun h => by rw [h]; rfl
  rw [State.lengthError, failingChecks_ecbd_of_keyLen_eq hk, State.ciphertextErrors, if_pos hbad',
    pickError_singleton]

theorem lengthError_ecbd_of_good_length (hk : s.keyLen = 16) (h0 : s.dinLen ≠ 0)
    (hwhole : s.dinLen.toNat % 16 = 0) : s.lengthError .ecbd = none := by
  have hgood : ¬ (s.dinLen.toNat = 0 ∨ s.dinLen.toNat % 16 ≠ 0) := by
    rintro (hz | hw)
    · exact h0 (BitVec.eq_of_toNat_eq hz)
    · exact hw hwhole
  rw [lengthError_eq_none, failingChecks_ecbd_of_keyLen_eq hk, State.ciphertextErrors, if_neg hgood]

/-- ECBE with its length check passed (R164). -/
theorem exec_ecbe_of_passed (hfit : s.dinLen.toNat ≤ s.params.dinCap) (hk : s.keyLen = 16) :
    exec .ecbe s = .next (ecbeWork s.beginCommand.loadSchedule) :=
  modeCommand_of_passed hfit ((lengthError_ecbe s).trans (lengthError_kexp_of_eq hk))

/-- The work of ECBE on the schedule it has loaded (R164). -/
theorem ecbeWork_loadSchedule (s : State) : ecbeWork s.beginCommand.loadSchedule =
    (s.beginCommand.loadSchedule.deliver (ecbEncryptWith (expandBlock s.keybuf)
      ((List.range s.dinLen.toNat).map s.dinByte))).endCommand := by
  simp [ecbeWork, dataOperand_eq_map s]

/-- ECBD with its length checks passed (R165). -/
theorem exec_ecbd_of_passed (hfit : s.dinLen.toNat ≤ s.params.dinCap) (hk : s.keyLen = 16)
    (h0 : s.dinLen ≠ 0) (hwhole : s.dinLen.toNat % 16 = 0) :
    exec .ecbd s = .next (ecbdWork s.beginCommand.loadSchedule) :=
  modeCommand_of_passed hfit (lengthError_ecbd_of_good_length hk h0 hwhole)

/-- What ECBD unpads, with the schedule it has loaded (R165). -/
theorem ecbDecryptWith_loadSchedule (s : State) :
    ecbDecryptWith s.beginCommand.loadSchedule.rk s.beginCommand.loadSchedule.dataOperand =
      ecbDecryptWith (expandBlock s.keybuf) ((List.range s.dinLen.toNat).map s.dinByte) := by
  simp [dataOperand_eq_map s]

theorem ecbdWork_of_ok {r : List Byte}
    (h : unpad (ecbDecryptWith s.rk s.dataOperand) = .ok r) :
    ecbdWork s = (s.deliver r).endCommand := by
  rw [ecbdWork, h]

theorem ecbdWork_of_error {e : ErrorKind}
    (h : unpad (ecbDecryptWith s.rk s.dataOperand) = .error e) :
    ecbdWork s = s.raiseError .ecbd e := by
  rw [ecbdWork, h]

end ecb

/-- Settles O41: the key length is the only check, and the result is 16 bytes for every block of the
padded data. -/
theorem ecbeEncryptsTheData : Obligations.EcbeEncryptsTheData := by
  refine fun s => ⟨fun hfit hk => ?_, fun hfit hk => ?_, modeCommand_of_not_fits⟩
  · rw [exec_ecbe_of_passed hfit hk, ecbeWork_loadSchedule]
    obtain ⟨w, n, hstate⟩ := loadSchedule_deliver_endCommand s (ecbEncryptWith (expandBlock s.keybuf)
      ((List.range s.dinLen.toNat).map s.dinByte))
    rw [length_ecbEncryptWith, List.length_map, List.length_range] at hstate
    exact ⟨w, n, congrArg _ hstate⟩
  · exact modeCommand_of_lengthError rfl hfit (lengthError_ecbe_of_keyLen_ne hk)

/-- Settles O42: the checks in R165's order, then `ecbdWork_cases` on the schedule that is already
loaded. -/
theorem ecbdDecryptsTheData : Obligations.EcbdDecryptsTheData := by
  refine fun s => ⟨fun ho hfit hk => ?_, fun hfit hk hbad => ?_, fun hfit hk h0 hwhole r hr => ?_,
    fun hfit hk h0 hwhole hno => ?_, modeCommand_of_not_fits⟩
  · exact modeCommand_of_lengthError rfl hfit (lengthError_ecbd_of_keyLen_ne ho hk)
  · exact modeCommand_of_lengthError rfl hfit (lengthError_ecbd_of_bad_length hk hbad)
  · rw [← ecbDecryptWith_loadSchedule] at hr
    rw [exec_ecbd_of_passed hfit hk h0 hwhole, ecbdWork_of_ok hr]
    obtain ⟨w, n, hstate⟩ := loadSchedule_deliver_endCommand s r
    exact ⟨w, n, congrArg _ hstate⟩
  · rw [← ecbDecryptWith_loadSchedule] at hno
    rw [exec_ecbd_of_passed hfit hk h0 hwhole, ecbdWork_of_error (unpad_eq_invalidPadding hno)]
    obtain ⟨w, n, hstate⟩ := loadSchedule_raiseError (i := .ecbd) s .invalidPadding rfl
    exact ⟨w, n, congrArg _ hstate⟩

end Sys2Proof.Machine
end

section
/-! PROOFS. The CFB mode (45_cfb_mode.md R180 to R185). The segments of a sequence are its first 16
bytes and the segments of the rest, so the facts about them go by induction on the rest. Both loops do
one thing to a segment and differ only in the register the next one sees; what follows from that is
proved once, of a `SegmentLoop`. Then CFBE and CFBD. -/

namespace Sys2Proof.Machine

/-! ### Segmentation (R180) -/

section segmentation

variable (x : List Byte) (j : Nat)

/-- What holds of the empty sequence, and of a sequence when it holds of what follows the first segment,
holds of every sequence. -/
theorem segment_induction {motive : List Byte → Prop} (nil : motive [])
    (rest : ∀ x, x ≠ [] → motive (x.drop 16) → motive x) (x : List Byte) : motive x :=
  if h : x = [] then h ▸ nil else rest x h (segment_induction nil rest (x.drop 16))
termination_by x.length
decreasing_by
  have := List.length_pos_iff.2 h
  rw [List.length_drop]
  omega

@[simp] theorem length_segmentAt : (segmentAt x j).length = min 16 (x.length - 16 * j) := by
  simp [segmentAt]

@[simp] theorem length_segments : (segments x).length = (x.length + 15) / 16 := by
  simp [segments, segmentCount]

@[simp] theorem segmentAt_zero : segmentAt x 0 = x.take 16 := rfl

/-- The later segments are those of the rest. -/
theorem segmentAt_succ : segmentAt x (j + 1) = segmentAt (x.drop 16) j := by
  rw [segmentAt, segmentAt, List.drop_drop, Nat.mul_succ, Nat.add_comm]

/-- The first segment and the segments of the rest. -/
theorem segments_of_ne_nil {x : List Byte} (h : x ≠ []) :
    segments x = x.take 16 :: segments (x.drop 16) := by
  have hpos := List.length_pos_iff.2 h
  have hcount : segmentCount x.length = segmentCount (x.drop 16).length + 1 := by
    rw [List.length_drop, segmentCount, segmentCount]
    omega
  rw [segments, hcount, List.range_succ_eq_map, List.map_cons, List.map_map]
  exact congrArg _ (List.map_congr_left fun j _ => segmentAt_succ x j)

theorem flatten_segments : (segments x).flatten = x := by
  induction x using segment_induction with
  | nil => rfl
  | rest x h ih => rw [segments_of_ne_nil h, List.flatten_cons, ih, List.take_append_drop]

/-- The segments are those at the indices below their count. -/
theorem mem_segments {x seg : List Byte} :
    seg ∈ segments x ↔ ∃ j < (x.length + 15) / 16, segmentAt x j = seg := by
  simp [segments, segmentCount]

/-- The segments but the last are those at the indices below the last one's. -/
theorem mem_dropLast_segments {x seg : List Byte} :
    seg ∈ (segments x).dropLast ↔ ∃ j < (x.length + 15) / 16 - 1, segmentAt x j = seg := by
  rw [List.dropLast_eq_take, length_segments, segments, ← List.map_take, List.take_range,
    segmentCount]
  simp

end segmentation

/-- Settles O34: the length of segment `j` is `min 16 (L - 16 j)`, which is at least 1 below the count
and 16 below the last index. -/
theorem segmentsPartitionTheSequence : Obligations.SegmentsPartitionTheSequence := by
  refine fun x => ⟨flatten_segments x, length_segments x, fun seg h => ?_, fun seg h => ?_⟩
  · obtain ⟨j, hj, rfl⟩ := mem_segments.1 h
    rw [length_segmentAt]
    omega
  · obtain ⟨j, hj, rfl⟩ := mem_dropLast_segments.1 h
    rw [length_segmentAt]
    omega

/-! ### The two loops (R181, R182) -/

/-- `F` treats its operand as both loops of CFB do: the first segment under the encryption of the
register, then the rest with `next` in the register. -/
structure SegmentLoop (W : Schedule) (F : List Byte → Block → List Byte)
    (next : List Byte → Block → Block) : Prop where
  nil : ∀ fb, F [] fb = []
  step : ∀ x fb, F x fb =
    xorBytes (x.take 16) (encrypt W fb).toList ++ F (x.drop 16) (next x fb)

@[simp] theorem length_xorBytes_block (s : List Byte) (b : Block) :
    (xorBytes s b.toList).length = min s.length 16 := by
  simp [xorBytes]

theorem blockAt_drop_sixteen (c : List Byte) (j : Nat) :
    blockAt (c.drop 16) j = blockAt c (j + 1) := by
  have hindex (i : Nat) : 16 + (16 * j + i) = 16 * (j + 1) + i := by omega
  ext i hi : 1
  simp [blockAt, hindex]

/-- A whole segment is the next register (R181). -/
theorem nextFeedback_take_sixteen {c : List Byte} (h : 16 ≤ c.length) :
    nextFeedback (c.take 16) = blockAt c 0 := by
  have hlen : (c.take 16).length = 16 := by simp [h]
  rw [nextFeedback, dif_pos hlen, toBlock_eq_blockAt]
  ext i hi : 1
  simp [blockAt]

/-- The register for segment `j + 1` is block `j` of the ciphertext, seen from the rest after the first
segment. -/
theorem fedRegister_eq_blockAt {c : List Byte} (h : 16 ≤ c.length) (j : Nat) :
    (if j = 0 then nextFeedback (c.take 16) else blockAt (c.drop 16) (j - 1)) = blockAt c j := by
  cases j with
  | zero => exact nextFeedback_take_sixteen h
  | succ j => exact blockAt_drop_sixteen c j

namespace SegmentLoop

variable {W : Schedule} {F C : List Byte → Block → List Byte} {next : List Byte → Block → Block}
  (hF : SegmentLoop W F next) (x : List Byte) (fb : Block)

include hF

theorem length_eq : (F x fb).length = x.length := by
  induction x using segment_induction generalizing fb with
  | nil => rw [hF.nil]
  | rest x _ ih =>
    rw [hF.step, List.length_append, ih, length_xorBytes_block, List.length_take, List.length_drop]
    omega

/-- The result divides where its operand does. -/
theorem take_drop_eq : (F x fb).take 16 = xorBytes (x.take 16) (encrypt W fb).toList ∧
    (F x fb).drop 16 = F (x.drop 16) (next x fb) := by
  refine List.append_inj ((List.take_append_drop 16 _).trans (hF.step x fb)) ?_
  rw [List.length_take, hF.length_eq, length_xorBytes_block, List.length_take]
  omega

/-- Segment by segment, when the register is fed with the segments of the ciphertext `C`. -/
theorem segmentAt_eq (hlen : ∀ x fb, (C x fb).length = x.length)
    (hfed : ∀ x fb, next x fb = nextFeedback ((C x fb).take 16))
    (hdrop : ∀ x fb, (C x fb).drop 16 = C (x.drop 16) (next x fb))
    {j : Nat} (hj : j < (x.length + 15) / 16) :
    segmentAt (F x fb) j = xorBytes (segmentAt x j)
      (encrypt W (if j = 0 then fb else blockAt (C x fb) (j - 1))).toList := by
  induction j generalizing x fb with
  | zero => rw [segmentAt_zero, segmentAt_zero, if_pos rfl, (hF.take_drop_eq x fb).1]
  | succ j ih =>
    have hrest : j < ((x.drop 16).length + 15) / 16 := by rw [List.length_drop]; omega
    have hfull : 16 ≤ (C x fb).length := by rw [hlen]; omega
    rw [segmentAt_succ, (hF.take_drop_eq x fb).2, ih _ _ hrest, ← hdrop, hfed,
      fedRegister_eq_blockAt hfull, segmentAt_succ, if_neg (Nat.succ_ne_zero j), Nat.add_sub_cancel]

end SegmentLoop

/-- The loop of encryption feeds the register with its result (R181). -/
theorem segmentLoop_encrypt (W : Schedule) : SegmentLoop W (cfbEncryptLoop · W ·)
    fun x fb => nextFeedback (xorBytes (x.take 16) (encrypt W fb).toList) where
  nil _ := rfl
  step x fb := by
    by_cases h : x = []
    · rw [h]
      rfl
    · simp only [cfbEncryptLoop, segments_of_ne_nil h, cfbEncryptSegments]

/-- The loop of decryption feeds the register with its operand (R182). -/
theorem segmentLoop_decrypt (W : Schedule) : SegmentLoop W (cfbDecryptLoop · W ·)
    fun x _ => nextFeedback (x.take 16) where
  nil _ := rfl
  step x fb := by
    by_cases h : x = []
    · rw [h]
      rfl
    · simp only [cfbDecryptLoop, segments_of_ne_nil h, cfbDecryptSegments]

@[simp] theorem length_cfbEncryptLoop (p : List Byte) (W : Schedule) (iv : Block) :
    (cfbEncryptLoop p W iv).length = p.length := (segmentLoop_encrypt W).length_eq p iv

@[simp] theorem length_cfbDecryptLoop (c : List Byte) (W : Schedule) (iv : Block) :
    (cfbDecryptLoop c W iv).length = c.length := (segmentLoop_decrypt W).length_eq c iv

/-- Settles O35: both loops are a `SegmentLoop`; the ciphertext is the result of the one and the operand
of the other. -/
theorem cfbSegmentEquations : Obligations.CfbSegmentEquations := by
  refine fun W iv p c => ⟨length_cfbEncryptLoop p W iv, length_cfbDecryptLoop c W iv,
    fun j hj => ?_, fun j hj => ?_⟩
  · have hE := segmentLoop_encrypt W
    exact hE.segmentAt_eq p iv hE.length_eq
      (fun x fb => congrArg nextFeedback (hE.take_drop_eq x fb).1.symm)
      (fun x fb => (hE.take_drop_eq x fb).2) hj
  · exact (segmentLoop_decrypt W).segmentAt_eq (C := fun x _ => x) c iv (fun _ _ => rfl)
      (fun _ _ => rfl) (fun _ _ => rfl) hj

/-! ### CFBE and CFBD (R184, R185) -/

section cfb

variable {s : State} {i : Instr} {rest : List ErrorKind}

/-- Under `ERR_ORDER = fixed` a bad key length is reported by every command that checks it first
(R207). -/
theorem lengthError_of_keyLen_ne (hc : s.failingChecks i = s.keyErrors ++ rest)
    (ho : s.params.errOrder = .fixed) (hk : s.keyLen ≠ 16) :
    s.lengthError i = some .invalidKeyLength := by
  rw [lengthError_fixed ho, hc, State.keyErrors, if_neg hk]
  rfl

/-- A single failing check is reported under either order (R207). -/
theorem lengthError_of_failingChecks_eq_singleton {e : ErrorKind} (h : s.failingChecks i = [e]) :
    s.lengthError i = some e := by
  rw [State.lengthError, h, pickError_singleton]

theorem keyErrors_of_keyLen_eq (hk : s.keyLen = 16) : s.keyErrors = [] := if_pos hk

theorem ivLengthErrors_of_ne (hp : s.ivPresent = true) (hl : s.ivLen ≠ 16) :
    s.ivLengthErrors = [.invalidIVLength] := if_pos ⟨hp, hl⟩

theorem ivLengthErrors_of_eq (h : s.ivPresent = true → s.ivLen = 16) : s.ivLengthErrors = [] :=
  if_neg fun ⟨hp, hl⟩ => hl (h hp)

theorem missingIvErrors_of_present (hp : s.ivPresent = true) : s.missingIvErrors = [] := if_pos hp

theorem missingIvErrors_of_absent (hp : s.ivPresent = false) : s.missingIvErrors = [.missingIV] :=
  if_neg (by simp [hp])

theorem failingChecks_cfbe_of_keyLen_eq (hk : s.keyLen = 16) :
    s.failingChecks .cfbe = s.ivLengthErrors := by
  rw [State.failingChecks, keyErrors_of_keyLen_eq hk, List.nil_append]

theorem failingChecks_cfbd_of_keyLen_eq (hk : s.keyLen = 16) :
    s.failingChecks .cfbd = s.missingIvErrors ++ s.ivLengthErrors := by
  rw [State.failingChecks, keyErrors_of_keyLen_eq hk, List.nil_append]

theorem countDraw_eq (s : State) : s.countDraw = { s with draws := s.countDraw.draws } := by
  unfold State.countDraw
  split <;> rfl

/-- `DOUT_LEN` of a result as long as the data is `DIN_LEN` (R184, R185). -/
theorem ofNat_length_dataOperand (s : State) :
    BitVec.ofNat 32 s.dataOperand.length = s.dinLen := by
  simp [dataOperand_eq_map]

/-- Beside the result CFBE leaves the IV it used and the count of draws (R184, R212). -/
theorem cfbeWork_eq (s : State) : cfbeWork s =
    { (s.deliver (cfbEncryptLoop s.dataOperand s.rk s.encryptIv)).endCommand with
      ivout := s.encryptIv, draws := s.countDraw.draws } := by
  rw [cfbeWork, countDraw_eq]
  rfl

/-- The state CFBE leaves when its checks have passed (R184). -/
theorem cfbeWork_loadSchedule (s : State) : ∃ (w : Work) (n d : Nat),
    cfbeWork s.beginCommand.loadSchedule =
      { s with errcode := 0, rk := expandBlock s.keybuf, ksValid := true, ivout := s.encryptIv,
               dout := cfbEncryptLoop ((List.range s.dinLen.toNat).map s.dinByte)
                 (expandBlock s.keybuf) s.encryptIv,
               doutLen := s.dinLen, done := true, work := w, free := n, draws := d } := by
  obtain ⟨w, n, hstate⟩ := loadSchedule_deliver_endCommand s
    (cfbEncryptLoop s.dataOperand (expandBlock s.keybuf) s.encryptIv)
  refine ⟨w, n, s.beginCommand.loadSchedule.countDraw.draws, ?_⟩
  rw [cfbeWork_eq, loadSchedule_dataOperand, beginCommand_dataOperand, loadSchedule_rk,
    beginCommand_keybuf, loadSchedule_encryptIv, beginCommand_encryptIv, hstate,
    length_cfbEncryptLoop, ofNat_length_dataOperand, dataOperand_eq_map]

/-- The state CFBD leaves when its checks have passed (R185). -/
theorem cfbdWork_loadSchedule (s : State) : ∃ (w : Work) (n : Nat),
    cfbdWork s.beginCommand.loadSchedule =
      { s with errcode := 0, rk := expandBlock s.keybuf, ksValid := true,
               dout := cfbDecryptLoop ((List.range s.dinLen.toNat).map s.dinByte)
                 (expandBlock s.keybuf) s.ivbuf,
               doutLen := s.dinLen, done := true, work := w, free := n } := by
  obtain ⟨w, n, hstate⟩ := loadSchedule_deliver_endCommand s
    (cfbDecryptLoop s.dataOperand (expandBlock s.keybuf) s.ivbuf)
  refine ⟨w, n, ?_⟩
  rw [cfbdWork, loadSchedule_dataOperand, beginCommand_dataOperand, loadSchedule_rk,
    beginCommand_keybuf, State.ivOperand, loadSchedule_ivbuf, beginCommand_ivbuf, hstate,
    length_cfbDecryptLoop, ofNat_length_dataOperand, dataOperand_eq_map]

end cfb

/-- Settles O43: after the key length only the IV length is checked, and only of a supplied IV. -/
theorem cfbeEncryptsTheData : Obligations.CfbeEncryptsTheData := by
  refine fun s => ⟨fun ho hfit hk => ?_, fun hfit hk hp hl => ?_, fun hfit hk hl => ?_,
    modeCommand_of_not_fits⟩
  · exact modeCommand_of_lengthError rfl hfit (lengthError_of_keyLen_ne rfl ho hk)
  · have hc := (failingChecks_cfbe_of_keyLen_eq hk).trans (ivLengthErrors_of_ne hp hl)
    exact modeCommand_of_lengthError rfl hfit (lengthError_of_failingChecks_eq_singleton hc)
  · have hc := (failingChecks_cfbe_of_keyLen_eq hk).trans (ivLengthErrors_of_eq hl)
    obtain ⟨w, n, d, hstate⟩ := cfbeWork_loadSchedule s
    refine ⟨s.encryptIv, w, n, d, encryptIv_of_present, ?_⟩
    rw [← hstate]
    exact modeCommand_of_passed hfit (lengthError_eq_none.2 hc)

/-- Settles O44: after the key length, whether an IV is there and then its length; nothing is checked of
the ciphertext. -/
theorem cfbdDecryptsTheData : Obligations.CfbdDecryptsTheData := by
  refine fun s => ⟨fun ho hfit hk => ?_, fun hfit hk hp => ?_, fun hfit hk hp hl => ?_,
    fun hfit hk hp hl => ?_, modeCommand_of_not_fits⟩
  · exact modeCommand_of_lengthError rfl hfit
      (lengthError_of_keyLen_ne (List.append_assoc _ _ _) ho hk)
  · have hc : s.failingChecks .cfbd = [.missingIV] := by
      rw [failingChecks_cfbd_of_keyLen_eq hk, missingIvErrors_of_absent hp,
        ivLengthErrors_of_absent hp, List.append_nil]
    exact modeCommand_of_lengthError rfl hfit (lengthError_of_failingChecks_eq_singleton hc)
  · have hc : s.failingChecks .cfbd = [.invalidIVLength] := by
      rw [failingChecks_cfbd_of_keyLen_eq hk, missingIvErrors_of_present hp,
        ivLengthErrors_of_ne hp hl, List.nil_append]
    exact modeCommand_of_lengthError rfl hfit (lengthError_of_failingChecks_eq_singleton hc)
  · have hc : s.failingChecks .cfbd = [] := by
      rw [failingChecks_cfbd_of_keyLen_eq hk, missingIvErrors_of_present hp,
        ivLengthErrors_of_eq fun _ => hl, List.nil_append]
    obtain ⟨w, n, hstate⟩ := cfbdWork_loadSchedule s
    refine ⟨w, n, ?_⟩
    rw [← hstate]
    exact modeCommand_of_passed hfit (lengthError_eq_none.2 hc)

end Sys2Proof.Machine
end

section
/-! PROOFS. Error entry (60_exceptions.md R208). A command raises in two places only: at a length check,
before it has changed anything, or in ECBD at the padding, when the schedule is loaded. -/

namespace Sys2Proof.Machine

variable {s t : State} {i : Instr}

/-- The six data commands are all but KEXP (R39). -/
theorem isDataCommand_eq_true_iff : isDataCommand i = true ↔ i ≠ .kexp := by
  cases i <;> simp [isDataCommand]

/-- Only ECBD raises after its length checks, and then InvalidPadding (R205, R207). -/
theorem commandWork_error (s : State) (h : (s.commandWork i).errcode ≠ 0) :
    i = .ecbd ∧
    s.commandWork i = s.beginCommand.loadSchedule.raiseError .ecbd .invalidPadding := by
  cases i with
  | kexp | encb | decb => exact absurd (by simp [State.commandWork]) h
  | ecbe => exact absurd (by simp [State.commandWork, ecbeWork]) h
  | ecbd =>
    rcases ecbdWork_cases s.beginCommand.loadSchedule with ⟨r, -, hw⟩ | ⟨-, hw⟩
    · exact absurd (by simp [State.commandWork, hw]) h
    · exact ⟨rfl, hw⟩
  | cfbe => exact absurd (by simp [State.commandWork]) h
  | cfbd => exact absurd (by simp [State.commandWork, cfbdWork]) h

/-- The two ways a command ends with an error: a failing length check, or the padding in ECBD. -/
theorem exec_error_cases (h : exec i s = .next t) (ht : t.errcode ≠ 0) :
    (∃ e, s.lengthError i = some e ∧ t = s.beginCommand.raiseError i e) ∨
    (i = .ecbd ∧ t = s.beginCommand.loadSchedule.raiseError .ecbd .invalidPadding) := by
  obtain ⟨-, rfl⟩ := exec_eq_next_iff.1 h
  cases he : s.lengthError i with
  | some e => exact .inl ⟨e, rfl, checked_of_lengthError _ he⟩
  | none =>
    rw [checked_of_passed _ he] at ht ⊢
    exact .inr (commandWork_error s ht)

/-- A data command that raises leaves no result, and KEXP leaves the old one (R208). -/
theorem raiseError_result (s : State) (i : Instr) (e : ErrorKind) :
    (i ≠ .kexp → (s.raiseError i e).doutLen = 0 ∧ (s.raiseError i e).dout = []) ∧
    (i = .kexp → (s.raiseError i e).doutLen = s.doutLen ∧ (s.raiseError i e).dout = s.dout) := by
  rw [raiseError_doutLen, raiseError_dout]
  refine ⟨fun hi => ?_, fun hi => ?_⟩
  · rw [if_pos (isDataCommand_eq_true_iff.2 hi), if_pos (isDataCommand_eq_true_iff.2 hi)]
    exact ⟨rfl, rfl⟩
  · subst hi
    exact ⟨rfl, rfl⟩

/-- Settles O49: of the two ways to raise (`exec_error_cases`) a length check has a code other than
InvalidPadding's and leaves RK, and the padding check comes after the schedule is loaded. -/
theorem errorEntry : Obligations.ErrorEntry := by
  intro i s t h ht
  have hhost : s.SameHostSide t := exec_sameHostSide h
  have hivout : t.ivout = s.ivout := (exec_ivout h).resolve_right fun ⟨_, h0⟩ => ht h0
  obtain ⟨-, hbit, -, -⟩ := status_bits t
  have herr : (t.readByte .reg 1).getLsbD 1 = true := hbit.trans (decide_eq_true ht)
  rcases exec_error_cases h ht with ⟨e, he, rfl⟩ | ⟨rfl, rfl⟩
  · obtain ⟨hdata, hkexp⟩ := raiseError_result s.beginCommand i e
    have h5 := errorCode_lengthError_ne_five he
    refine ⟨by simp, herr, hdata, hkexp, hhost, hivout, by simp, fun _ => by simp, fun hc => ?_⟩
    exact absurd ((raiseError_errcode _ _ _).symm.trans hc) h5
  · obtain ⟨hdata, -⟩ := raiseError_result s.beginCommand.loadSchedule .ecbd .invalidPadding
    refine ⟨by simp, herr, hdata, nofun, hhost, hivout, by simp, fun h5 => ?_, fun _ => by simp⟩
    exact absurd (raiseError_errcode _ _ _) h5

end Sys2Proof.Machine
end

section
/-! PROOFS. What every step keeps: the invariant, the soundness of the schedule, the two flags that only a
reset clears. Each is proved of a command, of a host write and of a reset, and `step_cases` puts a step
together from these. -/

namespace Sys2Proof.Machine

/-! ### What an answered command leaves -/

section commands

variable {s t : State} {i : Instr}

/-- The two ends of an answered command, its precondition kept with them (R207). -/
theorem exec_outcome (h : exec i s = .next t) : s.Ready i ∧
    ((∃ e, s.lengthError i = some e ∧ t = s.beginCommand.raiseError i e) ∨
     (s.lengthError i = none ∧ t = s.commandWork i)) := by
  obtain ⟨hready, rfl⟩ := exec_eq_next_iff.1 h
  refine ⟨hready, ?_⟩
  cases he : s.lengthError i with
  | some e => exact .inl ⟨e, rfl, checked_of_lengthError _ he⟩
  | none => exact .inr ⟨rfl, checked_of_passed _ he⟩

theorem commandWork_done (s : State) (i : Instr) : (s.commandWork i).done = true := by
  cases i with
  | kexp | encb | decb => rfl
  | ecbe => simp [State.commandWork, ecbeWork]
  | ecbd =>
    rcases ecbdWork_cases s.beginCommand.loadSchedule with ⟨r, -, hw⟩ | ⟨-, hw⟩ <;>
      simp [State.commandWork, hw]
  | cfbe => simp [State.commandWork, cfbeWork]
  | cfbd => simp [State.commandWork, cfbdWork]

/-- Every command ends with `DONE = 1` (R32). -/
theorem exec_done (h : exec i s = .next t) : t.done = true := by
  obtain ⟨-, ⟨e, -, rfl⟩ | ⟨-, rfl⟩⟩ := exec_outcome h
  · exact raiseError_done _ _ _
  · exact commandWork_done s i

theorem errorCode_le_six (e : ErrorKind) : (errorCode e).toNat ≤ 6 := by cases e <;> decide

/-- A command leaves 0 or the code of an error kind in `ERRCODE` (R33, R200). -/
theorem exec_errcode_legal (h : exec i s = .next t) : t.errcode.toNat ≤ 6 := by
  by_cases h0 : t.errcode = 0
  · simp [h0]
  · rcases exec_error_cases h h0 with ⟨e, -, rfl⟩ | ⟨-, rfl⟩ <;>
      exact (raiseError_errcode _ _ _).symm ▸ errorCode_le_six _

/-- A command leaves the schedule alone or loads the one of the key operand (R116, R117). -/
theorem exec_schedule (h : exec i s = .next t) :
    (t.rk = s.rk ∧ t.ksValid = s.ksValid) ∨ (t.rk = expandBlock s.keybuf ∧ t.ksValid = true) := by
  obtain ⟨-, ⟨e, -, rfl⟩ | ⟨-, rfl⟩⟩ := exec_outcome h
  · exact .inl ⟨by simp, by simp⟩
  · cases i with
    | kexp => exact .inr ⟨by simp [State.commandWork], by simp [State.commandWork]⟩
    | encb | decb => exact .inl ⟨rfl, rfl⟩
    | ecbe | ecbd | cfbe | cfbd => exact .inr ((commandWork_loadsSchedule s rfl).imp_right And.left)

/-! ### The result of a command (R39) -/

@[simp] theorem length_dataOperand (s : State) : s.dataOperand.length = s.dinLen.toNat := by
  simp [State.dataOperand, State.memRead]

/-- After a data command `DOUT_LEN` is the length of the result, as a number of 32 bits. -/
theorem exec_doutLen (hi : isDataCommand i = true) (h : exec i s = .next t) :
    t.doutLen = BitVec.ofNat 32 t.dout.length := by
  obtain ⟨-, ⟨e, -, rfl⟩ | ⟨-, rfl⟩⟩ := exec_outcome h
  · simp [hi]
  · cases i with
    | kexp => cases hi
    | encb | decb => rfl
    | ecbe => simp [State.commandWork, ecbeWork]
    | ecbd =>
      rcases ecbdWork_cases s.beginCommand.loadSchedule with ⟨r, -, hw⟩ | ⟨-, hw⟩
      · simp [State.commandWork, hw]
      · simp [State.commandWork, hw, isDataCommand]
    | cfbe => simp [State.commandWork, cfbeWork]
    | cfbd => simp [State.commandWork, cfbdWork]

/-- The work of a data command delivers at most `DOUT_CAP` bytes (R8): 16 bytes from ENCB and DECB, at most
16 more than the data from ECBE, no more than the data from the others. -/
theorem commandWork_dout_fits (hi : isDataCommand i = true) (hready : s.Ready i) :
    (s.commandWork i).dout.length ≤ s.params.doutCap := by
  unfold Params.doutCap
  cases i with
  | kexp => cases hi
  | encb | decb => simp [State.commandWork]
  | ecbe =>
    have hdata : s.dinLen.toNat ≤ s.params.dinCap := hready
    have hlen : (s.commandWork .ecbe).dout.length = 16 * (s.dinLen.toNat / 16 + 1) := by
      simp [State.commandWork, ecbeWork]
    omega
  | ecbd =>
    have hdata : s.dinLen.toNat ≤ s.params.dinCap := hready
    rcases ecbdWork_cases s.beginCommand.loadSchedule with ⟨r, hr, hw⟩ | ⟨-, hw⟩
    · have hlen : (s.commandWork .ecbd).dout.length = r.length := by simp [State.commandWork, hw]
      have hshort : r.length ≤ 16 * (s.dinLen.toNat / 16) := by
        simpa [ecbDecryptWith] using (unpad_prefix hr).length_le
      omega
    · simp [State.commandWork, hw, isDataCommand]
  | cfbe =>
    have hdata : s.dinLen.toNat ≤ s.params.dinCap := hready
    have hlen : (s.commandWork .cfbe).dout.length = s.dinLen.toNat := by simp [State.commandWork]
    omega
  | cfbd =>
    have hdata : s.dinLen.toNat ≤ s.params.dinCap := hready
    have hlen : (s.commandWork .cfbd).dout.length = s.dinLen.toNat := by
      simp [State.commandWork, cfbdWork]
    omega

/-- The result of a data command fits into `DOUT` (R8, R39). -/
theorem exec_dout_fits (hi : isDataCommand i = true) (h : exec i s = .next t) :
    t.dout.length ≤ s.params.doutCap := by
  obtain ⟨hready, ⟨e, -, rfl⟩ | ⟨-, rfl⟩⟩ := exec_outcome h
  · simp [hi]
  · exact commandWork_dout_fits hi hready

/-- KEXP leaves the result of the command before it (R39). -/
theorem exec_kexp_dout (h : exec .kexp s = .next t) :
    t.dout = s.dout ∧ t.doutLen = s.doutLen := by
  obtain ⟨-, ⟨e, -, rfl⟩ | ⟨-, rfl⟩⟩ := exec_outcome h
  · exact ⟨by simp [isDataCommand], by simp [isDataCommand]⟩
  · exact ⟨by simp [State.commandWork], by simp [State.commandWork]⟩

theorem params_wf_iff {p : Params} : p.wf = true ↔ 16 ≤ p.dinCap ∧ p.dinCap ≤ 4294967279 := by
  simp [Params.wf]

/-- With parameters in R8's bounds `DOUT_LEN` holds the length of the result itself. -/
theorem exec_toNat_doutLen (hp : s.params.wf = true) (hi : isDataCommand i = true)
    (h : exec i s = .next t) : t.doutLen.toNat = t.dout.length := by
  have hfit := exec_dout_fits hi h
  obtain ⟨-, hcap⟩ := params_wf_iff.1 hp
  rw [Params.doutCap] at hfit
  rw [exec_doutLen hi h, BitVec.toNat_ofNat]
  omega

end commands

/-! ### The invariant -/

section inv

variable {s t : State}

theorem inv_withScript (h : s.Inv) (rest : List HostAction) : (s.withScript rest).Inv :=
  ⟨h.params_wf, h.din_wf, h.din_inside, h.dout_length, h.dout_fits, h.errcode_legal, h.error_done,
    h.result_done⟩

/-- Every command keeps the invariant: the operands stay, and the result and the code are legal. -/
theorem exec_inv {i : Instr} (hinv : s.Inv) (h : exec i s = .next t) : t.Inv := by
  have hhost := exec_sameHostSide h
  have hdone := exec_done h
  have hresult : t.dout.length = t.doutLen.toNat ∧ t.doutLen.toNat ≤ t.params.doutCap := by
    rw [hhost.params]
    by_cases hi : isDataCommand i = true
    · have hlen := exec_toNat_doutLen hinv.params_wf hi h
      exact ⟨hlen.symm, hlen ▸ exec_dout_fits hi h⟩
    · obtain rfl : i = .kexp := by simpa [isDataCommand_eq_true_iff] using hi
      obtain ⟨hdout, hlen⟩ := exec_kexp_dout h
      rw [hdout, hlen]
      exact ⟨hinv.dout_length, hinv.dout_fits⟩
  exact {
    params_wf := hhost.params ▸ hinv.params_wf
    din_wf := hhost.din ▸ hinv.din_wf
    din_inside := by rw [hhost.din, hhost.params]; exact hinv.din_inside
    dout_length := hresult.1
    dout_fits := hresult.2
    errcode_legal := exec_errcode_legal h
    error_done := fun _ => hdone
    result_done := fun _ => hdone }

/-- A host write changes host operands and host registers only (R56). -/
theorem writeByte_eq (s : State) (sp : Space) (off : Nat) (v : Byte) :
    ∃ (k : Block) (kl : Byte) (b : Block) (bl : Byte) (p : Bool) (dl : BitVec 32),
      s.writeByte sp off v = { s with
        keybuf := k, keyLen := kl, ivbuf := b, ivLen := bl, ivPresent := p, dinLen := dl,
        din := if sp = .din then s.din.write off v else s.din } := by
  cases sp with
  | reg =>
    simp only [State.writeByte, State.regWrite]
    split <;> exact ⟨_, _, _, _, _, _, rfl⟩
  | keybuf | ivbuf | ivout | rk | din | dout => exact ⟨_, _, _, _, _, _, rfl⟩

@[simp] theorem writeByte_params (s : State) (sp : Space) (off : Nat) (v : Byte) :
    (s.writeByte sp off v).params = s.params := by
  obtain ⟨k, kl, b, bl, p, dl, hw⟩ := writeByte_eq s sp off v
  rw [hw]

@[simp] theorem writeByte_script (s : State) (sp : Space) (off : Nat) (v : Byte) :
    (s.writeByte sp off v).script = s.script := by
  obtain ⟨k, kl, b, bl, p, dl, hw⟩ := writeByte_eq s sp off v
  rw [hw]

/-- A host write inside its space keeps the invariant. -/
theorem writeByte_inv {sp : Space} {off : Nat} {v : Byte} (hinv : s.Inv)
    (hoff : off < sp.size s.params) : (s.writeByte sp off v).Inv := by
  obtain ⟨k, kl, b, bl, p, dl, hw⟩ := writeByte_eq s sp off v
  rw [hw]
  refine ⟨hinv.params_wf, ?_, ?_, hinv.dout_length, hinv.dout_fits, hinv.errcode_legal,
    hinv.error_done, hinv.result_done⟩
  · dsimp only
    split
    · exact memory_write_wf hinv.din_wf off v
    · exact hinv.din_wf
  · dsimp only
    split
    next hsp =>
      subst hsp
      intro e he
      rcases mem_memory_write he with rfl | he
      · exact hoff
      · exact hinv.din_inside e he
    · exact hinv.din_inside

theorem applyReset_inv (hp : s.params.wf = true) : s.applyReset.Inv where
  params_wf := hp
  din_wf := memory_wf_nil
  din_inside := nofun
  dout_length := rfl
  dout_fits := Nat.zero_le _
  errcode_legal := Nat.zero_le _
  error_done h := absurd rfl h
  result_done h := absurd rfl h

end inv

/-- Settles O7: commands, host writes and resets keep the invariant, each by its own lemma; a read changes
the answers only. -/
theorem stepKeepsTheInvariant : Obligations.StepKeepsTheInvariant := by
  intro s t hinv h
  rcases step_cases h with ⟨-, rfl⟩ | ⟨op, i, rest, -, -, hx⟩ | ⟨sp, off, v, rest, -, -, hlt, rfl⟩ |
    ⟨sp, off, rest, -, -, rfl⟩ | ⟨rest, -, rfl⟩
  · exact ⟨hinv, rfl⟩
  · exact ⟨exec_inv (inv_withScript hinv rest) hx, (exec_sameHostSide hx).params⟩
  · exact ⟨writeByte_inv (inv_withScript hinv rest) hlt, writeByte_params _ sp off v⟩
  · exact ⟨⟨hinv.params_wf, hinv.din_wf, hinv.din_inside, hinv.dout_length, hinv.dout_fits,
      hinv.errcode_legal, hinv.error_done, hinv.result_done⟩, rfl⟩
  · exact ⟨applyReset_inv hinv.params_wf, rfl⟩

/-- Settles O8: a command leaves the schedule or loads one that is the expansion of the key operand, and
after a reset there is none. -/
theorem stepKeepsTheScheduleSound : Obligations.StepKeepsTheScheduleSound := by
  intro s t hsound h
  rcases step_cases h with ⟨-, rfl⟩ | ⟨op, i, rest, -, -, hx⟩ | ⟨sp, off, v, rest, -, -, -, rfl⟩ |
    ⟨sp, off, rest, -, -, rfl⟩ | ⟨rest, -, rfl⟩
  · exact hsound
  · rcases exec_schedule hx with ⟨hrk, hks⟩ | ⟨hrk, -⟩
    · rw [State.ScheduleSound, hrk, hks]
      exact hsound
    · exact fun _ => ⟨_, hrk⟩
  · obtain ⟨k, kl, b, bl, p, dl, hw⟩ := writeByte_eq (s.withScript rest) sp off v
    rw [hw]
    exact hsound
  · exact hsound
  · exact nofun

/-- Settles O9: a command sets `DONE` and never clears `KS_VALID`, and no host access writes either. -/
theorem onlyResetClearsTheFlags : Obligations.OnlyResetClearsTheFlags := by
  intro s t h hreset
  rcases step_cases h with ⟨-, rfl⟩ | ⟨op, i, rest, -, -, hx⟩ | ⟨sp, off, v, rest, -, -, -, rfl⟩ |
    ⟨sp, off, rest, -, -, rfl⟩ | ⟨rest, hs, rfl⟩
  · exact ⟨id, id⟩
  · refine ⟨fun hk => ?_, fun _ => exec_done hx⟩
    rcases exec_schedule hx with ⟨-, hks⟩ | ⟨-, hks⟩
    · exact hks.trans hk
    · exact hks
  · obtain ⟨k, kl, b, bl, p, dl, hw⟩ := writeByte_eq (s.withScript rest) sp off v
    rw [hw]
    exact ⟨id, id⟩
  · exact ⟨id, id⟩
  · exact absurd (by rw [hs]; rfl) hreset

/-- Settles O6: the `DIN_CAP` that is chosen lies in R8's bounds, the reset state has no data, no result and
no error, and its schedule is not valid. -/
theorem resetMeetsTheInvariant : Obligations.ResetMeetsTheInvariant := by
  have hcap : 16 ≤ Config.dinCap ∧ Config.dinCap ≤ 4294967279 := by
    rw [Config.dinCap]
    omega
  have hp : Config.platform.wf = true := params_wf_iff.2 hcap
  exact ⟨⟨hp, memory_wf_nil, nofun, rfl, Nat.zero_le _, Nat.zero_le _, fun h => absurd rfl h,
    fun h => absurd rfl h⟩, nofun⟩

end Sys2Proof.Machine
end

section
/-! PROOFS. The opcode table read forwards (30_encoding.md R70, R71): a command's byte decodes to it, and
writing it to CMD runs it. -/

namespace Sys2Proof.Machine

theorem decode_encode (i : Instr) : decode (encode i) = .ok i := by cases i <;> rfl

/-- The byte of a command the host may issue does issue it (R72). -/
theorem issued_encode {p : Params} {i : Instr} (hi : i.wf p = true) : issued p (encode i) = some i := by
  simp [issued, decode_encode, hi]

/-- Settles O1: `decode_encode` is the one direction and `encode_of_decode` the other. -/
theorem decodeEncodeAgree : Obligations.DecodeEncodeAgree :=
  ⟨decode_encode, fun _ _ => encode_of_decode⟩

/-- Settles O2: the seven bytes are those of `encode`. -/
theorem opcodeBytesDecode : Obligations.OpcodeBytesDecode :=
  ⟨decode_encode .kexp, decode_encode .encb, decode_encode .decb, decode_encode .ecbe,
    decode_encode .ecbd, decode_encode .cfbe, decode_encode .cfbd⟩

/-- Settles O3: `step_command` on the command that its own byte issues. -/
theorem stepRunsTheCommand : Obligations.StepRunsTheCommand :=
  fun _ _ _ hscript hi => step_command hscript (issued_encode hi)

end Sys2Proof.Machine
end

section
/-! PROOFS. The laws of `GMUL` and `GINV` (40_gf_sbox.md R92, R93). -/

namespace Sys2Proof.Machine

theorem gmul_zero_left (b : Byte) : gmul 0 b = 0 := (xtimeLinear_gmul_right b).map_zero

theorem gmul_zero_right (a : Byte) : gmul a 0 = 0 := by rw [gmul_comm, gmul_zero_left]

theorem gmul_two_right (a : Byte) : gmul a 2 = xtime a := by
  have h2 : (2 : Byte) = xtime 1 := by decide
  rw [gmul_comm, h2, gmul_xtime_left, gmul_one_left]

theorem gmul_three_right (a : Byte) : gmul a 3 = xtime a ^^^ a := by
  have h3 : (3 : Byte) = 2 ^^^ 1 := by decide
  rw [h3, gmul_xor_right, gmul_two_right, gmul_one_right]

/-- `GINV` is an inverse, read off the S-box. -/
theorem gmul_ginv {a : Byte} (ha : a ≠ 0) : gmul a (ginv a) = 1 := by
  rw [ginv_eq_invAffine_sbox, gmul_invAffine_sbox ha]

theorem eq_zero_of_gmul_eq_zero {a b : Byte} (ha : a ≠ 0) (h : gmul a b = 0) : b = 0 :=
  calc b = gmul (gmul a (ginv a)) b := by rw [gmul_ginv ha, gmul_one_left]
    _ = gmul (gmul a b) (ginv a) := gmul_right_comm a (ginv a) b
    _ = 0 := by rw [h, gmul_zero_left]

theorem ginv_zero : ginv 0 = 0 := if_pos rfl

theorem ginv_ne_zero {a : Byte} (ha : a ≠ 0) : ginv a ≠ 0 := by
  intro h
  have hprod := gmul_ginv ha
  rw [h, gmul_zero_right] at hprod
  exact absurd hprod (by decide)

theorem ginv_ginv (a : Byte) : ginv (ginv a) = a := by
  by_cases ha : a = 0
  · rw [ha, ginv_zero, ginv_zero]
  · exact ginv_eq_of_gmul_eq_one (ginv_ne_zero ha) (by rw [gmul_comm, gmul_ginv ha])

/-- Settles O18: the products by 2 and 3 are those of `x` and `x + 1`, and a factor that is not 0 can be
cancelled with its inverse. -/
theorem fieldMultiplicationLaws : Obligations.FieldMultiplicationLaws :=
  ⟨gmul_comm, gmul_assoc, gmul_xor_right,
    fun a => ⟨gmul_zero_right a, gmul_one_right a, gmul_two_right a, gmul_three_right a⟩,
    fun _ _ ha hb h => hb (eq_zero_of_gmul_eq_zero ha h)⟩

/-- Settles O19: `GINV(a)` is an inverse of `a`, and there is only one. -/
theorem inverseIsUnique : Obligations.InverseIsUnique :=
  ⟨ginv_zero, fun _ _ ha => ⟨fun h => (ginv_eq_of_gmul_eq_one ha h).symm, fun h => h ▸ gmul_ginv ha⟩,
    ginv_ginv⟩

end Sys2Proof.Machine
end

section
/-! PROOFS. The block cipher's known answer and the CFB loops as functions of the whole sequence
(43_block_cipher.md R145, 45_cfb_mode.md R186). -/

namespace Sys2Proof.Machine

/-- D00's known answer, the direction that is computed. -/
theorem encrypt_knownAnswer :
    encrypt (expandBlock (hexBlock 0x000102030405060708090a0b0c0d0e0f))
        (hexBlock 0x00112233445566778899aabbccddeeff) =
      hexBlock 0x69c4e0d86a7b0430d8cdb78070b4c55a := by
  decide +kernel

/-- Settles O29: the encryption is computed, and decryption undoes it. -/
theorem knownAnswerTest : Obligations.KnownAnswerTest := by
  refine ⟨encrypt_knownAnswer, ?_⟩
  rw [← encrypt_knownAnswer, decrypt_encrypt]

/-! ### Exclusive-or with a keystream block -/

/-- The same keystream twice gives the segment back. -/
theorem xorBytes_xorBytes_right {s t : List Byte} (h : s.length ≤ t.length) :
    xorBytes (xorBytes s t) t = s := by
  refine List.ext_getElem (by simp [xorBytes, h]) fun i hi hi' => ?_
  simp [xorBytes]

/-- The segment with its result gives the keystream back, as far as the segment goes. -/
theorem xorBytes_xorBytes_left {s t : List Byte} (h : s.length = t.length) :
    xorBytes s (xorBytes s t) = t := by
  refine List.ext_getElem (by simp [xorBytes, h]) fun i hi hi' => ?_
  simp [xorBytes]

/-- A whole segment gives different results under different keystream blocks. -/
theorem block_eq_of_xorBytes_eq {s : List Byte} {a b : Block} (hs : s.length = 16)
    (h : xorBytes s a.toList = xorBytes s b.toList) : a = b := by
  have hlen (c : Block) : s.length = c.toList.length := by rw [hs, Vector.length_toList]
  refine Vector.toList_inj.1 ?_
  rw [← xorBytes_xorBytes_left (hlen a), h, xorBytes_xorBytes_left (hlen b)]

theorem encrypt_injective (W : Schedule) : Function.Injective (encrypt W) :=
  Function.LeftInverse.injective (decrypt_encrypt W)

/-! ### The two loops (R186) -/

/-- Decryption undoes encryption segment by segment: both registers hold the same ciphertext segment
(R186 (b)). -/
theorem cfbDecryptLoop_cfbEncryptLoop (W : Schedule) (iv : Block) (p : List Byte) :
    cfbDecryptLoop (cfbEncryptLoop p W iv) W iv = p := by
  induction p using segment_induction generalizing iv with
  | nil => exact List.length_eq_zero_iff.1 (by simp)
  | rest p _ ih =>
    obtain ⟨hfirst, hrest⟩ := (segmentLoop_encrypt W).take_drop_eq p iv
    rw [(segmentLoop_decrypt W).step, hfirst, hrest, ih, xorBytes_xorBytes_right (by simp),
      List.take_append_drop]

/-- Settles O36: one loop keeps the length and the other undoes it. -/
theorem cfbRoundTrip : Obligations.CfbRoundTrip := fun W iv p =>
  ⟨length_cfbEncryptLoop p W iv, cfbDecryptLoop_cfbEncryptLoop W iv p⟩

/-- Settles O37: equal ciphertexts have equal first segments, so equal first keystream blocks, and the
cipher is injective. -/
theorem cfbIvSensitivity : Obligations.CfbIvSensitivity := by
  intro W iv iv' p hlen hiv h
  have hfirst := congrArg (List.take 16) h
  rw [((segmentLoop_encrypt W).take_drop_eq p iv).1,
    ((segmentLoop_encrypt W).take_drop_eq p iv').1] at hfirst
  exact hiv (encrypt_injective W (block_eq_of_xorBytes_eq (by simp [hlen]) hfirst))

end Sys2Proof.Machine
end

section
/-! PROOFS. What every command keeps, counts and delivers: when it answers, its frame, the draws of the
random source, the result as the host reads it, and the round trips of the modes at the interface. -/

namespace Sys2Proof.Machine

/-! ### When a command answers, and its frame (R38, R74, D26) -/

section commands

variable {s t : State} {i : Instr}

/-- Settles O45: `exec_eq_next_iff` read as an equivalence of its precondition; there is no fault. -/
theorem commandAnswersExactlyWhenReady : Obligations.CommandAnswersExactlyWhenReady := by
  refine fun i s => ⟨⟨fun ⟨t, h⟩ => (exec_eq_next_iff.1 h).1, fun hready => ?_⟩, nofun⟩
  exact ⟨_, exec_eq_next_iff.2 ⟨hready, rfl⟩⟩

/-- The bytes of `KEYBUF`, `IVBUF` and `DIN` are functions of what no command writes. -/
theorem State.SameHostSide.readByte_eq (h : s.SameHostSide t) {sp : Space}
    (hsp : sp ∈ [Space.keybuf, .ivbuf, .din]) (off : Nat) : t.readByte sp off = s.readByte sp off := by
  have hcases : sp = .keybuf ∨ sp = .ivbuf ∨ sp = .din := by simpa using hsp
  rcases hcases with rfl | rfl | rfl
  · simp only [State.readByte, State.bufferByte, h.keybuf]
  · simp only [State.readByte, State.bufferByte, h.ivbuf]
  · simp only [State.readByte, State.bufferByte, State.dinByte, State.dinUnwritten, h.din, h.resetIdx]

/-- ENCB and DECB leave the schedule (R147, R148). -/
theorem exec_block_schedule (hi : i = .encb ∨ i = .decb) (h : exec i s = .next t) :
    t.rk = s.rk ∧ t.ksValid = s.ksValid := by
  obtain ⟨-, ⟨e, -, rfl⟩ | ⟨-, rfl⟩⟩ := exec_outcome h
  · exact ⟨by simp, by simp⟩
  · rcases hi with rfl | rfl <;> exact ⟨rfl, rfl⟩

/-! ### The draws of the random source (R212) -/

theorem commandWork_draws (s : State) (i : Instr) : (s.commandWork i).draws =
    s.draws + if i = .cfbe ∧ s.ivPresent = false then 1 else 0 := by
  cases i with
  | kexp | encb | decb => simp [State.commandWork]
  | ecbe => simp [State.commandWork, ecbeWork]
  | ecbd =>
    rcases ecbdWork_cases s.beginCommand.loadSchedule with ⟨r, -, hw⟩ | ⟨-, hw⟩ <;>
      simp [State.commandWork, hw]
  | cfbe =>
    simp only [State.commandWork, cfbeWork]
    cases hp : s.ivPresent <;> simp [hp]
  | cfbd => simp [State.commandWork, cfbdWork]

/-- A command draws once when it is a CFBE without an IV that has passed its checks, and not otherwise. -/
theorem exec_draws (h : exec i s = .next t) : t.draws =
    s.draws + if i = .cfbe ∧ s.ivPresent = false ∧ t.errcode = 0 then 1 else 0 := by
  obtain ⟨-, ⟨e, -, rfl⟩ | ⟨-, rfl⟩⟩ := exec_outcome h
  · rw [raiseError_draws, raiseError_errcode, if_neg fun ⟨_, _, hc⟩ => errorCode_ne_zero e hc]
    rfl
  · rw [commandWork_draws]
    by_cases hi : i = .cfbe
    · subst hi
      simp [State.commandWork]
    · simp [hi]

/-- Settles O46: `exec_sameHostSide` for the host's side, and for each other field the commands that could
write it; a read is a function of the fields behind it. -/
theorem commandFrame : Obligations.CommandFrame := by
  intro i s t h
  have hhost := exec_sameHostSide h
  refine ⟨hhost, fun sp hsp off => hhost.readByte_eq hsp off, fun hi => ?_, fun hi => ?_, fun hi => ?_⟩
  · have hiv : t.ivout = s.ivout := (exec_ivout h).resolve_right fun ⟨hc, _⟩ => hi hc
    refine ⟨hiv, by simp [exec_draws h, hi], fun off => ?_⟩
    simp only [State.readByte, State.bufferByte, hiv]
  · obtain ⟨hrk, hks⟩ := exec_block_schedule hi h
    refine ⟨hrk, hks, fun off => ?_⟩
    simp only [State.readByte, State.bufferByte, State.anyRead, hrk, hks, hhost.answers]
  · subst hi
    obtain ⟨hdout, hlen⟩ := exec_kexp_dout h
    refine ⟨hdout, hlen, fun off => ?_⟩
    have hholds : t.doutHolds off = s.doutHolds off := by
      rw [State.doutHolds, State.doutHolds, hdout, hlen]
    simp only [State.readByte, State.bufferByte, State.anyRead, hholds, hdout, hhost.answers]

/-- Settles O53: `exec_draws` is the count, and without a supplied IV the one CFBE used is the draw. -/
theorem randomSourceConsultedOnce : Obligations.RandomSourceConsultedOnce := by
  refine ⟨fun i s t h => exec_draws h, fun s t h hp ht => ?_⟩
  rw [exec_cfbe_success h ht, ← encryptIv_of_absent hp]
  exact ⟨by simp, by simp⟩

/-! ### The result (R39, R53) -/

/-- The host reads the bytes of the result where `DOUT_LEN` is its length. -/
theorem readByte_dout (hlen : s.dout.length = s.doutLen.toNat) {j : Nat} (hj : j < s.dout.length) :
    s.readByte .dout j = s.dout[j] := by
  have hholds : s.doutHolds j = true := by simp [State.doutHolds, ← hlen, hj]
  simp [State.readByte, State.bufferByte, hholds, hj]

/-- Settles O54: `DOUT_LEN` is the length of the result, and below it the host reads its bytes. -/
theorem resultIsReadable : Obligations.ResultIsReadable := by
  intro i s t hinv h hi
  have hlen := (exec_toNat_doutLen hinv.params_wf hi h).symm
  exact ⟨hlen, fun j hj => readByte_dout hlen hj⟩

/-! ### The round trips (R168, R186) -/

/-- An ECBE that ends without error has the encryption of its data operand in `DOUT`. -/
theorem exec_ecbe_success (h : exec .ecbe s = .next t) (ht : t.errcode = 0) :
    t.dout = ecbEncryptWith (expandBlock s.keybuf) s.dataOperand := by
  obtain ⟨-, ⟨e, -, rfl⟩ | ⟨-, rfl⟩⟩ := exec_outcome h
  · exact absurd ht (by simpa using errorCode_ne_zero e)
  · simp [State.commandWork, ecbeWork]

/-- Settles O55: the result of ECBE has a legal length and decrypts to the padded data, so ECBD passes all
its checks. -/
theorem ecbeThenEcbdReturnsThePlaintext : Obligations.EcbeThenEcbdReturnsThePlaintext := by
  intro s t u h ht hk hkey hfit hdata
  rw [exec_ecbe_success h ht] at hdata
  have hlen : u.dinLen.toNat = 16 * (s.dinLen.toNat / 16 + 1) := by
    simpa using congrArg List.length hdata
  have h0 : u.dinLen ≠ 0 := by
    intro hz
    rw [hz] at hlen
    simp at hlen
  have hunpad : unpad (ecbDecryptWith (expandBlock u.keybuf)
      ((List.range u.dinLen.toNat).map u.dinByte)) = .ok s.dataOperand := by
    rw [← dataOperand_eq_map, hdata, hkey, ecbDecryptWith_ecbEncryptWith, unpad_pad]
  obtain ⟨-, -, hok, -⟩ := ecbdDecryptsTheData u
  obtain ⟨w, n, hexec⟩ := hok hfit hk h0 (by omega) _ hunpad
  exact ⟨_, hexec, rfl, rfl⟩

/-- Settles O56: CFBD with the same key and the IV that CFBE used undoes the segment loop. -/
theorem cfbeThenCfbdReturnsThePlaintext : Obligations.CfbeThenCfbdReturnsThePlaintext := by
  intro s t u h ht hk hkey hp hl hiv hfit hdata
  obtain ⟨-, hcfbe, -⟩ := ivoutWrittenByCfbeOnly
  obtain ⟨-, hdout⟩ := hcfbe s t h ht
  obtain ⟨-, -, -, hok, -⟩ := cfbdDecryptsTheData u
  obtain ⟨w, n, hexec⟩ := hok hfit hk hp hl
  refine ⟨_, hexec, rfl, ?_⟩
  calc cfbDecryptLoop ((List.range u.dinLen.toNat).map u.dinByte) (expandBlock u.keybuf) u.ivbuf
      = cfbDecryptLoop (cfbEncryptLoop s.dataOperand (expandBlock s.keybuf) t.ivout)
          (expandBlock s.keybuf) t.ivout := by
        rw [← dataOperand_eq_map, hdata, hdout, hkey, hiv]
    _ = s.dataOperand := cfbDecryptLoop_cfbEncryptLoop _ _ _

end commands

end Sys2Proof.Machine
end

section
/-! PROOFS. What no command looks at (60_exceptions.md R209, 43_block_cipher.md R147, R148). Two states
answer alike when the precondition, the length error and both ends of the command correspond
(`exec_map`). -/

namespace Sys2Proof.Machine

section map

variable {s s' t : State} {i : Instr} {φ ψ : State → State}

/-- A command that answers in `s` answers in `s'` with the corresponding state. -/
theorem exec_map (hready : s.Ready i → s'.Ready i) (hl : s'.lengthError i = s.lengthError i)
    (hraise : ∀ e, s'.beginCommand.raiseError i e = ψ (s.beginCommand.raiseError i e))
    (hwork : s'.commandWork i = ψ (s.commandWork i)) (h : exec i s = .next t) :
    exec i s' = .next (ψ t) := by
  obtain ⟨hr, ⟨e, he, rfl⟩ | ⟨he, rfl⟩⟩ := exec_outcome h
  · exact exec_eq_next_iff.2
      ⟨hready hr, (checked_of_lengthError _ (hl.trans he)).trans (hraise e)⟩
  · exact exec_eq_next_iff.2 ⟨hready hr, (checked_of_passed _ (hl.trans he)).trans hwork⟩

/-- `φ` changes nothing that the work of a command reads, beside the IV registers, and becomes `ψ` when
the command ends. -/
structure CarriedAlong (φ ψ : State → State) : Prop where
  rk : ∀ s, (φ s).rk = s.rk
  dataOperand : ∀ s, (φ s).dataOperand = s.dataOperand
  deliver : ∀ s r, ((φ s).deliver r).endCommand = ψ (s.deliver r).endCommand
  raiseError : ∀ s i e, (φ s).raiseError i e = ψ (s.raiseError i e)

theorem CarriedAlong.ecbeWork (h : CarriedAlong φ ψ) (s : State) :
    ecbeWork (φ s) = ψ (ecbeWork s) := by
  rw [Machine.ecbeWork, h.rk, h.dataOperand, h.deliver, Machine.ecbeWork]

theorem CarriedAlong.ecbdWork (h : CarriedAlong φ ψ) (s : State) :
    ecbdWork (φ s) = ψ (ecbdWork s) := by
  rcases ecbdWork_cases s with ⟨r, hr, hw⟩ | ⟨he, hw⟩
  · rw [ecbdWork_of_ok (by rw [h.rk, h.dataOperand, hr]), hw, h.deliver]
  · rw [ecbdWork_of_error (by rw [h.rk, h.dataOperand, he]), hw, h.raiseError]

theorem CarriedAlong.cfbdWork (h : CarriedAlong φ ψ) (hiv : (φ s).ivbuf = s.ivbuf) :
    cfbdWork (φ s) = ψ (cfbdWork s) := by
  rw [Machine.cfbdWork, h.rk, h.dataOperand, h.deliver, State.ivOperand, hiv]
  rfl

end map

/-! ### The working registers, ERRCODE and DONE (R40, R209) -/

/-- `s` with other contents of the working registers and `DONE`. -/
def State.setLeftovers (s : State) (w : Work) (d : Bool) : State := { s with work := w, done := d }

section leftovers

variable (s : State) (w : Work) (d : Bool)

theorem endCommand_setLeftovers : (s.setLeftovers w d).endCommand = s.endCommand := rfl

theorem carriedAlong_setLeftovers : CarriedAlong (·.setLeftovers w d) id where
  rk _ := rfl
  dataOperand _ := rfl
  deliver _ _ := rfl
  raiseError _ i _ := by cases i <;> rfl

theorem cfbeWork_setLeftovers : cfbeWork (s.setLeftovers w d) = cfbeWork s := by
  have hdraws : (s.setLeftovers w d).countDraw.draws = s.countDraw.draws := by
    rw [countDraw_draws, countDraw_draws]
    rfl
  rw [cfbeWork_eq, cfbeWork_eq, hdraws]
  rfl

/-- The work of a command, which begins with `ERRCODE = 0`, writes the leftovers before it could read
them. -/
theorem commandWork_leftovers (e : Byte) (i : Instr) :
    State.commandWork { s with work := w, errcode := e, done := d } i = s.commandWork i := by
  have hload : (State.beginCommand { s with work := w, errcode := e, done := d }).loadSchedule =
      s.beginCommand.loadSchedule.setLeftovers w d := by
    dsimp only [State.beginCommand, State.loadSchedule, State.keyOperand, State.setLeftovers]
  have hc := carriedAlong_setLeftovers w d
  cases i with
  | encb | decb => rfl
  | kexp => exact (congrArg State.endCommand hload).trans (endCommand_setLeftovers _ w d)
  | ecbe => exact (congrArg ecbeWork hload).trans (hc.ecbeWork _)
  | ecbd => exact (congrArg ecbdWork hload).trans (hc.ecbdWork _)
  | cfbe => exact (congrArg cfbeWork hload).trans (cfbeWork_setLeftovers _ w d)
  | cfbd => exact (congrArg cfbdWork hload).trans (hc.cfbdWork rfl)

end leftovers

/-- Settles O50: the checks do not look at the leftovers, and both ends of a command overwrite them. -/
theorem leftoversAreNotRead : Obligations.LeftoversAreNotRead := by
  intro i s w e d t h
  refine exec_map (ψ := id) ?_ ?_ (fun e' => ?_) (commandWork_leftovers s w d e i) h
  · cases i <;> exact id
  · cases i <;> rfl
  · cases i <;> rfl

/-! ### The key registers in ENCB and DECB, the IV registers outside CFB (R147, R201, R202) -/

/-- `s` with other contents of `KEYBUF` and `KEY_LEN`. -/
def State.setKeyRegs (s : State) (k : Block) (n : Byte) : State := { s with keybuf := k, keyLen := n }

/-- `s` with other contents of `IVBUF`, `IV_LEN` and `IV_PRESENT`. -/
def State.setIvRegs (s : State) (v : Block) (n : Byte) (p : Bool) : State :=
  { s with ivbuf := v, ivLen := n, ivPresent := p }

section unused

variable {s t : State} {i : Instr}

/-- A new key does not re-key ENCB and DECB (R234). -/
theorem exec_setKeyRegs (hi : i = .encb ∨ i = .decb) (k : Block) (n : Byte)
    (h : exec i s = .next t) : exec i (s.setKeyRegs k n) = .next (t.setKeyRegs k n) := by
  rcases hi with rfl | rfl <;>
    exact exec_map (s := s) (ψ := (·.setKeyRegs k n)) id rfl (fun _ => rfl) rfl h

variable (v : Block) (n : Byte) (p : Bool)

theorem carriedAlong_setIvRegs : CarriedAlong (·.setIvRegs v n p) (·.setIvRegs v n p) where
  rk _ := rfl
  dataOperand _ := rfl
  deliver _ _ := rfl
  raiseError _ i _ := by cases i <;> rfl

theorem commandWork_setIvRegs (s : State) (he : i ≠ .cfbe) (hd : i ≠ .cfbd) :
    (s.setIvRegs v n p).commandWork i = (s.commandWork i).setIvRegs v n p := by
  have hload : (s.setIvRegs v n p).beginCommand.loadSchedule =
      s.beginCommand.loadSchedule.setIvRegs v n p := by
    dsimp only [State.beginCommand, State.loadSchedule, State.keyOperand, State.setIvRegs]
  have hc := carriedAlong_setIvRegs v n p
  cases i with
  | encb | decb => rfl
  | kexp => exact congrArg State.endCommand hload
  | ecbe => exact (congrArg ecbeWork hload).trans (hc.ecbeWork _)
  | ecbd => exact (congrArg ecbdWork hload).trans (hc.ecbdWork _)
  | cfbe => exact absurd rfl he
  | cfbd => exact absurd rfl hd

/-- The five commands outside CFB do not look at the IV registers (R202). -/
theorem exec_setIvRegs (he : i ≠ .cfbe) (hd : i ≠ .cfbd) (h : exec i s = .next t) :
    exec i (s.setIvRegs v n p) = .next (t.setIvRegs v n p) := by
  refine exec_map (s := s) (ψ := (·.setIvRegs v n p)) ?_ ?_
    (fun e => (carriedAlong_setIvRegs v n p).raiseError s.beginCommand i e)
    (commandWork_setIvRegs v n p s he hd) h
  · cases i <;> exact id
  · cases i with
    | kexp | encb | decb | ecbe | ecbd => rfl
    | cfbe => exact absurd rfl he
    | cfbd => exact absurd rfl hd

end unused

/-- Settles O51: the key registers by `exec_setKeyRegs`, the IV registers by `exec_setIvRegs`. -/
theorem commandsIgnoreUnusedOperands : Obligations.CommandsIgnoreUnusedOperands :=
  ⟨fun _ _ _ k n hi h => exec_setKeyRegs hi k n h,
    fun _ _ _ v n p he hd h => exec_setIvRegs v n p he hd h⟩

end Sys2Proof.Machine
end

section
/-! PROOFS. The order of checks (60_exceptions.md R207). A check of a command's row fails exactly when its
condition holds (`mem_failingChecks`), the key length comes first, and at most one other check of a row can
fail at a time; which error is reported follows from that under both orders. -/

namespace Sys2Proof.Machine

/-- The condition under which command `i` can report an error kind at a length check (R207's table). -/
def State.FailsCheck (s : State) (i : Instr) : ErrorKind → Prop
  | .invalidKeyLength => i ∈ [Instr.kexp, .ecbe, .ecbd, .cfbe, .cfbd] ∧ s.keyLen ≠ 16
  | .invalidIVLength => (i = .cfbe ∨ i = .cfbd) ∧ s.ivPresent = true ∧ s.ivLen ≠ 16
  | .invalidBlockLength => (i = .encb ∨ i = .decb) ∧ s.dinLen ≠ 16
  | .invalidCiphertextLength => i = .ecbd ∧ (s.dinLen = 0 ∨ s.dinLen.toNat % 16 ≠ 0)
  | .invalidPadding => False
  | .missingIV => i = .cfbd ∧ s.ivPresent = false

section checks

variable {s t : State} {i : Instr} {e : ErrorKind}

/-! ### The checks one by one -/

theorem mem_keyErrors : e ∈ s.keyErrors ↔ e = .invalidKeyLength ∧ s.keyLen ≠ 16 := by
  unfold State.keyErrors
  split <;> simp_all

theorem mem_blockErrors : e ∈ s.blockErrors ↔ e = .invalidBlockLength ∧ s.dinLen ≠ 16 := by
  unfold State.blockErrors
  split <;> simp_all

theorem mem_ciphertextErrors : e ∈ s.ciphertextErrors ↔
    e = .invalidCiphertextLength ∧ (s.dinLen = 0 ∨ s.dinLen.toNat % 16 ≠ 0) := by
  have hzero : s.dinLen.toNat = 0 ↔ s.dinLen = 0 :=
    ⟨fun h => BitVec.eq_of_toNat_eq h, fun h => h ▸ rfl⟩
  rw [State.ciphertextErrors, ← hzero]
  split <;> simp_all

theorem mem_ivLengthErrors : e ∈ s.ivLengthErrors ↔
    e = .invalidIVLength ∧ s.ivPresent = true ∧ s.ivLen ≠ 16 := by
  unfold State.ivLengthErrors
  split <;> simp_all

theorem mem_missingIvErrors : e ∈ s.missingIvErrors ↔ e = .missingIV ∧ s.ivPresent = false := by
  unfold State.missingIvErrors
  split <;> simp_all

/-- The failing checks of a command are those whose condition holds. -/
theorem mem_failingChecks : e ∈ s.failingChecks i ↔ s.FailsCheck i e := by
  cases i with
  | kexp | ecbe => cases e <;> simp [State.failingChecks, mem_keyErrors, State.FailsCheck]
  | encb | decb => cases e <;> simp [State.failingChecks, mem_blockErrors, State.FailsCheck]
  | ecbd =>
    cases e <;> simp [State.failingChecks, mem_keyErrors, mem_ciphertextErrors, State.FailsCheck]
  | cfbe =>
    cases e <;> simp [State.failingChecks, mem_keyErrors, mem_ivLengthErrors, State.FailsCheck]
  | cfbd =>
    cases e <;> simp [State.failingChecks, mem_keyErrors, mem_ivLengthErrors, mem_missingIvErrors,
      State.FailsCheck]

/-! ### The first failing check -/

/-- After the key length a row has at most one failing check: MissingIV and InvalidIVLength exclude each
other. -/
theorem failingChecks_eq (s : State) (i : Instr) : ∃ rest : List ErrorKind,
    rest.length ≤ 1 ∧ .invalidKeyLength ∉ rest ∧
    (s.failingChecks i = rest ∨ s.failingChecks i = .invalidKeyLength :: rest) := by
  have hkey (rest : List ErrorKind) : s.keyErrors ++ rest = rest ∨
      s.keyErrors ++ rest = .invalidKeyLength :: rest := by
    unfold State.keyErrors
    split
    · exact .inl rfl
    · exact .inr rfl
  cases i with
  | kexp | ecbe => exact ⟨[], by simp, by simp, by simpa [State.failingChecks] using hkey []⟩
  | encb | decb =>
    refine ⟨s.blockErrors, ?_, by simp [mem_blockErrors], .inl rfl⟩
    unfold State.blockErrors
    split <;> simp
  | ecbd =>
    refine ⟨s.ciphertextErrors, ?_, by simp [mem_ciphertextErrors], hkey _⟩
    unfold State.ciphertextErrors
    split <;> simp
  | cfbe =>
    refine ⟨s.ivLengthErrors, ?_, by simp [mem_ivLengthErrors], hkey _⟩
    unfold State.ivLengthErrors
    split <;> simp
  | cfbd =>
    refine ⟨s.missingIvErrors ++ s.ivLengthErrors, ?_,
      by simp [mem_missingIvErrors, mem_ivLengthErrors],
      by simpa only [State.failingChecks, List.append_assoc] using hkey _⟩
    cases hp : s.ivPresent with
    | false => simp [missingIvErrors_of_absent hp, ivLengthErrors_of_absent hp]
    | true =>
      rw [missingIvErrors_of_present hp, List.nil_append]
      unfold State.ivLengthErrors
      split <;> simp

/-- A bad key length is the first failing check whenever the command checks it (R207). -/
theorem head?_failingChecks_eq_key :
    (s.failingChecks i).head? = some .invalidKeyLength ↔ s.FailsCheck i .invalidKeyLength := by
  obtain ⟨rest, -, hrest, hc | hc⟩ := failingChecks_eq s i
  · rw [← mem_failingChecks, hc]
    exact ⟨List.mem_of_mem_head?, fun h => absurd h hrest⟩
  · simp [← mem_failingChecks, hc]

/-- Every other check is the first to fail when it fails and the key length is good (R207). -/
theorem head?_failingChecks_eq_other (he : e ≠ .invalidKeyLength) :
    (s.failingChecks i).head? = some e ↔ ¬ s.FailsCheck i .invalidKeyLength ∧ s.FailsCheck i e := by
  obtain ⟨rest, hlen, hrest, hc | hc⟩ := failingChecks_eq s i
  · simp only [← mem_failingChecks, hc, hrest, not_false_eq_true, true_and]
    match rest, hlen with
    | [], _ => simp
    | [a], _ => simp [eq_comm]
  · simp [← mem_failingChecks, hc, he.symm]

/-! ### The code a command reports -/

theorem errorCode_injective : Function.Injective errorCode := by
  intro a b h
  cases a <;> cases b <;> simp [errorCode] at h ⊢

/-- The code of a kind other than InvalidPadding is left by a length check, and by nothing else. -/
theorem exec_errcode_iff (h : exec i s = .next t) (he : e ≠ .invalidPadding) :
    t.errcode = errorCode e ↔ s.lengthError i = some e := by
  obtain ⟨-, ⟨e', he', rfl⟩ | ⟨hnone, rfl⟩⟩ := exec_outcome h
  · rw [raiseError_errcode, he', Option.some_inj]
    exact errorCode_injective.eq_iff
  · rw [hnone]
    refine ⟨fun hc => ?_, nofun⟩
    obtain ⟨-, hw⟩ := commandWork_error s (i := i) (hc ▸ errorCode_ne_zero e)
    rw [hw, raiseError_errcode] at hc
    exact absurd (errorCode_injective hc).symm he

/-- A command with a failing length check raises one of them. -/
theorem exec_of_failsCheck (h : exec i s = .next t) (hfail : s.FailsCheck i e) :
    ∃ e', s.FailsCheck i e' ∧ t = s.beginCommand.raiseError i e' := by
  obtain ⟨-, ⟨e', he', rfl⟩ | ⟨hnone, -⟩⟩ := exec_outcome h
  · exact ⟨e', mem_failingChecks.1 (lengthError_mem he'), rfl⟩
  · have hmem := mem_failingChecks.2 hfail
    rw [lengthError_eq_none.1 hnone] at hmem
    cases hmem

/-- InvalidPadding is reported by ECBD when no length check fails. -/
theorem exec_errcode_five (h : exec i s = .next t) (h5 : t.errcode = 0x05) :
    i = .ecbd ∧ ∀ e, ¬ s.FailsCheck i e := by
  refine ⟨?_, fun e hfail => ?_⟩
  · rcases exec_error_cases h (h5 ▸ errorCode_ne_zero .invalidPadding) with ⟨e, he, rfl⟩ | ⟨hi, -⟩
    · exact absurd ((raiseError_errcode _ _ _).symm.trans h5) (errorCode_lengthError_ne_five he)
    · exact hi
  · obtain ⟨e', hfail', rfl⟩ := exec_of_failsCheck h hfail
    obtain rfl : e' = .invalidPadding :=
      errorCode_injective ((raiseError_errcode _ _ _).symm.trans h5)
    exact hfail'

/-- Error entry writes `ERRCODE`, the result with its length and `DONE`, and nothing else but the working
registers (R208). -/
theorem raiseError_eq (s : State) (i : Instr) (e : ErrorKind) :
    ∃ (r : List Byte) (x : BitVec 32) (w : Work) (n : Nat), s.beginCommand.raiseError i e =
      { s with errcode := errorCode e, dout := r, doutLen := x, done := true, work := w,
               free := n } := by
  cases i <;> exact ⟨_, _, _, _, rfl⟩

end checks

/-- Settles O48: under `fixed` the reported error is the first failing check, under `any` it is one of
them, and the lemmas above say when a check fails and when it is the first. -/
theorem orderOfChecks : Obligations.OrderOfChecks := by
  intro i s t h key block length noIv iv
  have hsome : (key ∨ block ∨ length ∨ noIv ∨ iv) → ∃ e, s.FailsCheck i e := by
    rintro (hf | hf | hf | hf | hf)
    exacts [⟨.invalidKeyLength, hf⟩, ⟨.invalidBlockLength, hf⟩, ⟨.invalidCiphertextLength, hf⟩,
      ⟨.missingIV, hf⟩, ⟨.invalidIVLength, hf⟩]
  have hblock : block → ¬ key := by
    rintro ⟨rfl | rfl, -⟩ ⟨hi, -⟩ <;> exact absurd hi (by decide)
  refine ⟨fun ho => ?_, fun _ hfail => ?_, fun h5 => ?_, fun hfail => ?_⟩
  · have hother {e : ErrorKind} (hp : e ≠ .invalidPadding) (hk : e ≠ .invalidKeyLength) :
        t.errcode = errorCode e ↔ ¬ key ∧ s.FailsCheck i e := by
      rw [exec_errcode_iff h hp, lengthError_fixed ho]
      exact head?_failingChecks_eq_other hk
    refine ⟨?_, hother (e := .invalidIVLength) nofun nofun, ?_,
      hother (e := .invalidCiphertextLength) nofun nofun, hother (e := .missingIV) nofun nofun⟩
    · refine (exec_errcode_iff (e := .invalidKeyLength) h nofun).trans ?_
      rw [lengthError_fixed ho]
      exact head?_failingChecks_eq_key
    · exact (hother (e := .invalidBlockLength) nofun nofun).trans (and_iff_right_of_imp hblock)
  · obtain ⟨_, he⟩ := hsome hfail
    obtain ⟨e', hfail', rfl⟩ := exec_of_failsCheck h he
    rw [raiseError_errcode]
    cases e' with
    | invalidKeyLength => exact .inl ⟨rfl, hfail'⟩
    | invalidIVLength => exact .inr (.inl ⟨rfl, hfail'⟩)
    | invalidBlockLength => exact .inr (.inr (.inl ⟨rfl, hfail'⟩))
    | invalidCiphertextLength => exact .inr (.inr (.inr (.inl ⟨rfl, hfail'⟩)))
    | invalidPadding => exact hfail'.elim
    | missingIV => exact .inr (.inr (.inr (.inr ⟨rfl, hfail'⟩)))
  · obtain ⟨hi, hnone⟩ := exec_errcode_five h h5
    exact ⟨hi, hnone .invalidKeyLength, hnone .invalidCiphertextLength⟩
  · obtain ⟨_, he⟩ := hsome hfail
    obtain ⟨e', -, rfl⟩ := exec_of_failsCheck h he
    exact ⟨_, raiseError_eq s i e'⟩

end Sys2Proof.Machine
end

section
/-! PROOFS. The host's accesses (10_state.md R36 to R39, 20_memory.md R51 to R56): the bytes of the length
registers, a read after a write, and the accesses that are ignored or refused. -/

namespace Sys2Proof.Machine

/-! ### The bytes of a length register (R38, R39) -/

section lenByte

variable (x y : BitVec 32)

theorem toNat_lenByte (k : Nat) : (lenByte x k).toNat = x.toNat / 256 ^ k % 256 := by
  have hpow : 2 ^ (8 * k) = 256 ^ k := Nat.pow_mul 2 8 k
  rw [lenByte, BitVec.toNat_setWidth, BitVec.toNat_ushiftRight, Nat.shiftRight_eq_div_pow, hpow]

/-- A length register is the little-endian number of its four bytes. -/
theorem toNat_eq_lenBytes : x.toNat = (lenByte x 0).toNat + 256 * (lenByte x 1).toNat +
    65536 * (lenByte x 2).toNat + 16777216 * (lenByte x 3).toNat := by
  have hlt := x.isLt
  simp only [toNat_lenByte, Nat.reducePow]
  omega

variable {x y} in
theorem eq_of_lenByte_eq (h : ∀ k : Fin 4, lenByte x k.val = lenByte y k.val) : x = y := by
  have h0 : lenByte x 0 = lenByte y 0 := h 0
  have h1 : lenByte x 1 = lenByte y 1 := h 1
  have h2 : lenByte x 2 = lenByte y 2 := h 2
  have h3 : lenByte x 3 = lenByte y 3 := h 3
  exact BitVec.eq_of_toNat_eq (by rw [toNat_eq_lenBytes x, toNat_eq_lenBytes y, h0, h1, h2, h3])

theorem getLsbD_lenByte {k i : Nat} (hi : i < 8) :
    (lenByte x k).getLsbD i = x.getLsbD (8 * k + i) := by
  simp [lenByte, hi]

/-- A bit of a length register with byte `k` set: one of the new byte's inside byte `k`, the old one
outside. -/
theorem getLsbD_setLenByte {k n : Nat} (v : Byte) (hn : n < 32) : (setLenByte x k v).getLsbD n =
    if 8 * k ≤ n ∧ n < 8 * k + 8 then v.getLsbD (n - 8 * k) else x.getLsbD n := by
  have hmask : (0xFF : BitVec 32) = (BitVec.allOnes 8).setWidth 32 := by decide
  simp only [setLenByte, hmask, BitVec.getLsbD_or, BitVec.getLsbD_and, BitVec.getLsbD_not,
    BitVec.getLsbD_shiftLeft, BitVec.getLsbD_setWidth, BitVec.getLsbD_allOnes, hn]
  by_cases hlo : n < 8 * k
  · have hout : ¬ (8 * k ≤ n ∧ n < 8 * k + 8) := by omega
    simp [hlo, hout]
  · have hin : 8 * k ≤ n ∧ n < 8 * k + 8 ↔ n - 8 * k < 8 := by omega
    have h32 : n - 8 * k < 32 := by omega
    simp only [hlo, hin, h32]
    by_cases h8 : n - 8 * k < 8
    · simp [h8]
    · simp [h8, BitVec.getLsbD_of_ge v _ (Nat.not_lt.1 h8)]

/-- Setting a byte of a length register sets that byte and leaves the other three (R38). -/
theorem lenByte_setLenByte {k j : Nat} (hk : k < 4) (hj : j < 4) (v : Byte) :
    lenByte (setLenByte x k v) j = if j = k then v else lenByte x j := by
  refine BitVec.eq_of_getLsbD_eq fun i hi => ?_
  rw [getLsbD_lenByte _ hi, getLsbD_setLenByte _ _ (by omega)]
  by_cases hjk : j = k
  · subst hjk
    rw [if_pos (by omega), if_pos rfl, Nat.add_sub_cancel_left]
  · rw [if_neg (by omega), if_neg hjk, getLsbD_lenByte _ hi]

end lenByte

/-! ### Registers -/

section registers

variable {s : State}

theorem readByte_dinLen (s : State) : ∀ k : Fin 4,
    s.readByte .reg (8 + k.val) = lenByte s.dinLen k.val
  | 0 | 1 | 2 | 3 => rfl

theorem regWrite_dinLen (s : State) (v : Byte) : ∀ k : Fin 4,
    s.regWrite (8 + k.val) v = { s with dinLen := setLenByte s.dinLen k.val v }
  | 0 | 1 | 2 | 3 => rfl

/-- The step that writes byte `k` of `DIN_LEN` (R38). -/
theorem step_write_dinLen {k : Fin 4} {v : Byte} {rest : List HostAction}
    (h : s.script = .write .reg (8 + k.val) v :: rest) :
    step s = .next { s with script := rest, dinLen := setLenByte s.dinLen k.val v } := by
  rw [step_regWrite h (by omega) (by omega), regWrite_dinLen]
  rfl

/-- Settles O12: both registers are `toNat_eq_lenBytes`, and a write to `DIN_LEN` sets one byte by
`lenByte_setLenByte`. -/
theorem lengthRegisters : Obligations.LengthRegisters := by
  refine ⟨fun s => toNat_eq_lenBytes s.dinLen, fun s => toNat_eq_lenBytes s.doutLen,
    fun s k v rest h => ?_, fun s v rest => ⟨fun h => ?_, fun h => ?_, rfl, rfl⟩⟩
  · refine ⟨_, step_write_dinLen h, rfl, fun j => ?_⟩
    rw [readByte_dinLen, readByte_dinLen, lenByte_setLenByte _ k.isLt j.isLt]
    simp only [Fin.ext_iff]
  · exact step_regWrite h (by decide) (by decide)
  · exact step_regWrite h (by decide) (by decide)

/-! ### A host write inside a buffer (R56, R61) -/

@[simp] theorem withScript_readByte (s : State) (rest : List HostAction) (sp : Space) (off : Nat) :
    (s.withScript rest).readByte sp off = s.readByte sp off := by
  cases sp <;> rfl

/-- A byte of a 16-byte buffer after one of its bytes is set. -/
theorem getD_setIfInBounds (b : Block) {off : Nat} (v : Byte) (off' : Nat) (hoff : off < 16) :
    (b.setIfInBounds off v).toList.getD off' 0 = if off' = off then v else b.toList.getD off' 0 := by
  by_cases h : off' = off
  · subst h
    simp [hoff]
  · simp [h, Ne.symm h]

/-- A byte of `DIN` after one of its bytes is written. -/
theorem dinByte_write (s : State) (off : Nat) (v : Byte) (off' : Nat) :
    State.dinByte { s with din := s.din.write off v } off' = if off' = off then v else s.dinByte off' := by
  by_cases h : off' = off
  · subst h
    simp [State.dinByte, memory_read_write_same]
  · simp [State.dinByte, State.dinUnwritten, memory_read_write_other s.din v h, h]

/-- What the host reads after a write to `KEYBUF`, `IVBUF` or `DIN`. -/
theorem readByte_writeByte {sp : Space} {off : Nat} (v : Byte)
    (hsp : sp ∈ [Space.keybuf, .ivbuf, .din]) (hoff : off < sp.size s.params) (sp' : Space)
    (off' : Nat) : (s.writeByte sp off v).readByte sp' off' =
      if (sp', off') = (sp, off) then v else s.readByte sp' off' := by
  have hcases : sp = .keybuf ∨ sp = .ivbuf ∨ sp = .din := by simpa using hsp
  by_cases hne : sp' = sp
  · subst hne
    simp only [Prod.mk.injEq, true_and]
    rcases hcases with rfl | rfl | rfl
    · exact getD_setIfInBounds s.keybuf v off' hoff
    · exact getD_setIfInBounds s.ivbuf v off' hoff
    · exact dinByte_write s off v off'
  · rw [if_neg (by simp [hne])]
    rcases hcases with rfl | rfl | rfl
    · cases sp' with
      | keybuf => exact absurd rfl hne
      | reg | ivbuf | ivout | rk | din | dout => rfl
    · cases sp' with
      | ivbuf => exact absurd rfl hne
      | reg | keybuf | ivout | rk | din | dout => rfl
    · cases sp' with
      | din => exact absurd rfl hne
      | reg | keybuf | ivbuf | ivout | rk | dout => rfl

/-- Settles O15: the write is answered, and `readByte_writeByte` says what every byte reads. -/
theorem hostWriteThenRead : Obligations.HostWriteThenRead := by
  intro s sp off v rest h hoff hsp
  have h0 : (sp, off) ≠ (Space.reg, 0) := by
    rintro ⟨⟩
    exact absurd hsp (by decide)
  have hread := readByte_writeByte (s := s.withScript rest) v hsp hoff
  refine ⟨_, step_write_inside h h0 hoff, writeByte_script _ sp off v, ?_, fun sp' off' hne => ?_⟩
  · rw [hread, if_pos rfl]
  · rw [hread, if_neg hne, withScript_readByte]

/-! ### Accesses that are ignored or refused (R26, R51, R56) -/

/-- A write to a read-only or reserved place inside its space changes nothing. -/
theorem writeByte_readOnly {sp : Space} {off : Nat} (v : Byte) (h : sp ∈ [Space.ivout, .rk, .dout] ∨
    (sp = .reg ∧ off ∈ [1, 2, 6, 7, 12, 13, 14, 15])) : s.writeByte sp off v = s := by
  rcases h with h | ⟨rfl, hoff⟩
  · have hcases : sp = .ivout ∨ sp = .rk ∨ sp = .dout := by simpa using h
    rcases hcases with rfl | rfl | rfl <;> rfl
  · simp only [List.mem_cons, List.not_mem_nil, or_false] at hoff
    rcases hoff with rfl | rfl | rfl | rfl | rfl | rfl | rfl | rfl <;> rfl

/-- Settles O13: none of these places is CMD, so the write is answered, and it is ignored. -/
theorem readOnlyWritesAreIgnored : Obligations.ReadOnlyWritesAreIgnored := by
  refine ⟨fun s sp off v rest h hoff hro => ?_, fun s => ⟨rfl, rfl, rfl⟩⟩
  have h0 : (sp, off) ≠ (Space.reg, 0) := by
    rintro ⟨⟩
    exact absurd hro (by decide)
  rw [step_write_inside h h0 hoff, writeByte_readOnly v hro]
  rfl

/-- Settles O14: an access inside its space is answered, and the byte read is the one of the buffer or
register behind it. -/
theorem hostReadReturnsTheByte : Obligations.HostReadReturnsTheByte := by
  intro s sp off rest h hoff
  refine ⟨⟨_, rfl, ?_⟩, ?_, ?_, ?_, ?_, ?_, ?_, ?_⟩
  · refine ((step_read h).trans (if_pos hoff)).trans ?_
    rw [withScript_readByte]
    rfl
  · rintro h16 rfl
    simp [State.readByte, State.bufferByte, h16]
  · rintro h16 rfl
    simp [State.readByte, State.bufferByte, h16]
  · rintro h16 rfl
    simp [State.readByte, State.bufferByte, h16]
  · rintro rfl v hv
    simp [State.readByte, State.bufferByte, State.dinByte, hv]
  · rintro hlen rfl hdout
    simp [State.readByte, State.bufferByte, State.doutHolds, hdout, hlen]
  · rintro i k rfl rfl hks
    have hword : (4 * i.val + k.val) / 4 = i.val := by omega
    have hbyte : (4 * i.val + k.val) % 4 = k.val := by omega
    have hlt : 4 * i.val + k.val < 176 := hoff
    simp [State.readByte, State.bufferByte, hks, hlt, rkByte, hword, hbyte]
  · rintro rfl rfl
    rfl

/-- Settles O16: `CMD` lies inside its space, so a write outside a space is a plain host write, and that is
refused like the read. -/
theorem accessOutsideASpaceIsRefused : Obligations.AccessOutsideASpaceIsRefused := by
  refine ⟨fun s sp off v rest h hout => ?_, fun s sp off rest h hout => ?_,
    fun s rest h => step_elsewhere h⟩
  · have h0 : (sp, off) ≠ (Space.reg, 0) := by
      rintro ⟨⟩
      exact Nat.not_succ_le_zero 15 hout
    exact (step_write h h0).trans (if_neg (Nat.not_lt.2 hout))
  · exact (step_read h).trans (if_neg (Nat.not_lt.2 hout))

end registers

end Sys2Proof.Machine
end

section
/-! PROOFS. Runs of host scripts (20_memory.md R55 to R57, 30_encoding.md R77): plain accesses are always
answered, and a line that writes bytes in ascending order leaves them all in their buffer. -/

namespace Sys2Proof.Machine

/-! ### Runs -/

section runs

variable {s t : State}

/-- The step of a well-formed action that does not write CMD is answered, and takes the action off the
script. -/
theorem step_plain {a : HostAction} {rest : List HostAction} (h : s.script = a :: rest)
    (hwf : a.wf s.params = true) (hcmd : ∀ op, a ≠ .write .reg 0 op) :
    ∃ t, step s = .next t ∧ t.script = rest ∧ t.params = s.params := by
  cases a with
  | write sp off v =>
    have h0 : (sp, off) ≠ (Space.reg, 0) := by
      rintro ⟨⟩
      exact hcmd v rfl
    exact ⟨_, step_write_inside h h0 (of_decide_eq_true hwf), by simp, by simp⟩
  | read sp off => exact ⟨_, (step_read h).trans (if_pos (of_decide_eq_true hwf)), rfl, rfl⟩
  | elsewhere => cases hwf
  | reset => exact ⟨_, step_reset h, rfl, rfl⟩

/-- Settles O57, by induction on the number of steps: each step leaves a shorter plain script, or idles. -/
theorem plainScriptsAreSafe : Obligations.PlainScriptsAreSafe := by
  intro s k
  induction k generalizing s with
  | zero => exact fun _ => trivial
  | succ k ih =>
    intro hplain
    cases hs : s.script with
    | nil => exact ⟨s, step_nil hs, ih s hplain⟩
    | cons a rest =>
      rw [hs, List.forall_mem_cons] at hplain
      obtain ⟨⟨hwf, hcmd⟩, hrest⟩ := hplain
      obtain ⟨t, hstep, hscript, hparams⟩ := step_plain hs hwf hcmd
      refine ⟨t, hstep, ih t ?_⟩
      rw [hscript, hparams]
      exact hrest

theorem run_succ (h : step s = .next t) (k : Nat) :
    Host.Core.run core (k + 1) s = Host.Core.run core k t := by
  have hcore : core.step s = .next t := h
  simp only [Host.Core.run, hcore]

/-- A run goes on from where its first steps end. -/
theorem run_add {m : Nat} (n : Nat) (h : Host.Core.run core m s = .next t) :
    Host.Core.run core (m + n) s = Host.Core.run core n t := by
  induction m generalizing s with
  | zero =>
    cases h
    rw [Nat.zero_add]
  | succ m ih =>
    rw [Nat.succ_add]
    cases hstep : step s with
    | next s' =>
      rw [run_succ hstep] at h ⊢
      exact ih h
    | fault r => cases r
    | refused r =>
      have hcore : core.step s = .refused r := hstep
      simp [Host.Core.run, hcore] at h

end runs

/-! ### Bytes written in ascending order (R77) -/

/-- `s` with bytes written to a space one after the other, from an offset on. -/
def State.writeFrom (s : State) (sp : Space) : Nat → List Byte → State
  | _, [] => s
  | off, v :: vs => (s.writeByte sp off v).writeFrom sp (off + 1) vs

section writeFrom

variable {s t : State}

@[simp] theorem withScript_writeByte (s : State) (rest : List HostAction) (sp : Space) (off : Nat)
    (v : Byte) : (s.writeByte sp off v).withScript rest = (s.withScript rest).writeByte sp off v := by
  cases sp with
  | reg => simp only [State.writeByte, State.regWrite]; split <;> rfl
  | keybuf | ivbuf | ivout | rk | din | dout => rfl

/-- The first write of a sequence of bytes, and the writes of the rest. -/
theorem mapIdx_write_cons (sp : Space) (off : Nat) (v : Byte) (vs : List Byte) :
    (v :: vs).mapIdx (fun i v => HostAction.write sp (off + i) v) =
      .write sp off v :: vs.mapIdx fun i v => .write sp (off + 1 + i) v := by
  simp [List.mapIdx_cons, Nat.add_assoc, Nat.add_comm 1]

/-- A run through the writes of a sequence of bytes inside a buffer. -/
theorem run_writes {sp : Space} (hsp : sp ≠ .reg) {off : Nat} {bytes : List Byte}
    {rest : List HostAction} (hfit : off + bytes.length ≤ sp.size s.params)
    (h : s.script = bytes.mapIdx (fun i v => .write sp (off + i) v) ++ rest) :
    Host.Core.run core bytes.length s = .next ((s.withScript rest).writeFrom sp off bytes) := by
  induction bytes generalizing s off with
  | nil =>
    obtain rfl : s.script = rest := h
    rfl
  | cons v vs ih =>
    rw [mapIdx_write_cons, List.cons_append] at h
    rw [List.length_cons] at hfit
    rw [List.length_cons, run_succ (step_write_inside h (by simp [hsp]) (by omega)),
      ih (off := off + 1) (by simp; omega) (writeByte_script _ sp off v), withScript_writeByte]
    rfl

/-- What the host reads after bytes were written to `KEYBUF`, `IVBUF` or `DIN`. -/
theorem readByte_writeFrom {sp : Space} (hsp : sp ∈ [Space.keybuf, .ivbuf, .din]) {off : Nat}
    {bytes : List Byte} (hfit : off + bytes.length ≤ sp.size s.params) (off' : Nat) :
    (s.writeFrom sp off bytes).readByte sp off' =
      if off ≤ off' ∧ off' < off + bytes.length then bytes.getD (off' - off) 0
      else s.readByte sp off' := by
  induction bytes generalizing s off with
  | nil => rw [if_neg (by simp), State.writeFrom]
  | cons v vs ih =>
    rw [List.length_cons] at hfit
    rw [State.writeFrom, ih (by simp; omega), readByte_writeByte v hsp (by omega)]
    by_cases hfirst : off' = off
    · subst hfirst
      simp
    · have hrange : off + 1 ≤ off' ∧ off' < off + 1 + vs.length ↔
          off ≤ off' ∧ off' < off + (vs.length + 1) := by omega
      simp only [hrange, List.length_cons, Prod.mk.injEq, hfirst, and_false, if_false]
      split
      next hin =>
        have hindex : off' - off = off' - (off + 1) + 1 := by omega
        rw [hindex, List.getD_cons_succ]
      · rfl

/-- Bytes written to `KEYBUF` change nothing else. -/
theorem eq_of_writeFrom_keybuf {off : Nat} {bytes : List Byte}
    (h : t = s.writeFrom .keybuf off bytes) : ∃ k : Block, t = { s with keybuf := k } := by
  induction bytes generalizing s off with
  | nil => exact ⟨s.keybuf, h⟩
  | cons v vs ih => exact ih (s := s.writeByte .keybuf off v) h

/-- Bytes written to `DIN` change nothing else. -/
theorem eq_of_writeFrom_din {off : Nat} {bytes : List Byte}
    (h : t = s.writeFrom .din off bytes) : ∃ d : Memory, t = { s with din := d } := by
  induction bytes generalizing s off with
  | nil => exact ⟨s.din, h⟩
  | cons v vs ih => exact ih (s := s.writeByte .din off v) h

/-- The writes that fill the beginning of `KEYBUF`, `IVBUF` or `DIN`, run to their end, and what the host
reads there. -/
theorem run_writeBytes {sp : Space} (hsp : sp ∈ [Space.keybuf, .ivbuf, .din]) {bytes : List Byte}
    {rest : List HostAction} (hfit : bytes.length ≤ sp.size s.params)
    (h : s.script = writeBytes sp bytes ++ rest) :
    ∃ t, Host.Core.run core bytes.length s = .next t ∧
      t = (s.withScript rest).writeFrom sp 0 bytes ∧
      ∀ off, t.readByte sp off =
        if off < bytes.length then bytes.getD off 0 else s.readByte sp off := by
  have hreg : sp ≠ .reg := by
    rintro rfl
    exact absurd hsp (by decide)
  have hfit' : 0 + bytes.length ≤ sp.size s.params := by rwa [Nat.zero_add]
  refine ⟨_, run_writes hreg hfit' (by simpa [writeBytes] using h), rfl, fun off => ?_⟩
  rw [readByte_writeFrom (s := s.withScript rest) hsp hfit', withScript_readByte]
  simp

end writeFrom

/-! ### LDKEY (R77) -/

theorem readByte_keybuf (s : State) (i : Fin 16) : s.readByte .keybuf i.val = s.keybuf[i] := by
  simp [State.readByte, State.bufferByte]

/-- Settles O58: the writes put the bytes in `KEYBUF`, and the last write is the one of REG 4. -/
theorem ldkeyLineLoadsTheKey : Obligations.LdkeyLineLoadsTheKey := by
  intro s key rest hlen hscript
  have hcount : min key.length 16 = (key.take 16).length := by simp [Nat.min_comm]
  obtain ⟨t, hrun, ht, hread⟩ := run_writeBytes (sp := .keybuf) (bytes := key.take 16)
    (rest := .write .reg 4 (BitVec.ofNat 8 key.length) :: rest) (by decide) (by simp [Space.size])
    (by simpa [expandLine] using hscript)
  obtain ⟨k, rfl⟩ := eq_of_writeFrom_keybuf ht
  refine ⟨{ s with script := rest, keybuf := k, keyLen := BitVec.ofNat 8 key.length }, ?_, ?_,
    fun i => ?_, rfl⟩
  · rw [hcount, run_add 1 hrun, run_succ (step_regWrite (n := 4) rfl (by decide) (by decide))]
    rfl
  · rw [BitVec.toNat_ofNat]
    omega
  · have hbyte := hread i.val
    rw [readByte_keybuf, readByte_keybuf] at hbyte
    refine hbyte.trans ?_
    by_cases hi : i.val < key.length
    · simp [hi]
    · simp [hi]

/-! ### SETLEN and LDDIN (R77) -/

/-- The byte that `SETLEN` writes to byte `k` of `DIN_LEN`. -/
theorem lenByte_ofNat (n : Nat) {k : Nat} (hk : k < 4) :
    lenByte (BitVec.ofNat 32 n) k = BitVec.ofNat 8 (n / 256 ^ k % 256) := by
  refine BitVec.eq_of_toNat_eq ?_
  rw [toNat_lenByte, BitVec.toNat_ofNat, BitVec.toNat_ofNat]
  interval_cases k <;> omega

/-- The four writes of `SETLEN` leave the bytes of one number in `DIN_LEN`, whatever was there. -/
theorem setLenBytes_eq (x : BitVec 32) (n : Nat) :
    setLenByte (setLenByte (setLenByte (setLenByte x 0 (BitVec.ofNat 8 (n % 256)))
      1 (BitVec.ofNat 8 (n / 256 % 256))) 2 (BitVec.ofNat 8 (n / 65536 % 256)))
      3 (BitVec.ofNat 8 (n / 16777216 % 256)) = BitVec.ofNat 32 n := by
  refine eq_of_lenByte_eq fun k => ?_
  fin_cases k <;> simp [lenByte_setLenByte, lenByte_ofNat]

/-- `s` with another `DIN_LEN`. -/
def State.withDinLen (s : State) (x : BitVec 32) : State := { s with dinLen := x }

theorem step_withDinLen (s : State) (x : BitVec 32) (k : Fin 4) (v : Byte) (rest : List HostAction) :
    step ((s.withScript (.write .reg (8 + k.val) v :: rest)).withDinLen x) =
      .next ((s.withScript rest).withDinLen (setLenByte x k.val v)) :=
  step_write_dinLen rfl

/-- A run through `SETLEN n`. -/
theorem run_setLen {s : State} {n : Nat} {rest : List HostAction}
    (h : s.script = setLen n ++ rest) : Host.Core.run core 4 s =
      .next ((s.withScript rest).withDinLen (BitVec.ofNat 32 n)) := by
  have hs : s = (s.withScript (setLen n ++ rest)).withDinLen s.dinLen := by
    rw [← h]
    rfl
  rw [← setLenBytes_eq s.dinLen n]
  calc Host.Core.run core 4 s
      = Host.Core.run core 4 ((s.withScript (setLen n ++ rest)).withDinLen s.dinLen) :=
        congrArg (Host.Core.run core 4) hs
    _ = Host.Core.run core 3 _ := run_succ (step_withDinLen s _ 0 _ _) 3
    _ = Host.Core.run core 2 _ := run_succ (step_withDinLen s _ 1 _ _) 2
    _ = Host.Core.run core 1 _ := run_succ (step_withDinLen s _ 2 _ _) 1
    _ = Host.Core.run core 0 _ := run_succ (step_withDinLen s _ 3 _ _) 0

/-- Settles O59: the writes put the bytes in `DIN`, and `SETLEN` makes them the data operand. -/
theorem lddinLineLoadsTheData : Obligations.LddinLineLoadsTheData := by
  intro s data rest hp hlen hscript
  obtain ⟨t, hrun, ht, hread⟩ := run_writeBytes (sp := .din) (bytes := data)
    (rest := setLen data.length ++ rest) (by decide) hlen (by simpa [expandLine] using hscript)
  obtain ⟨d, rfl⟩ := eq_of_writeFrom_din ht
  obtain ⟨-, hcap⟩ := params_wf_iff.1 hp
  have hdinLen : (BitVec.ofNat 32 data.length).toNat = data.length := by
    rw [BitVec.toNat_ofNat]
    omega
  refine ⟨_, (run_add 4 hrun).trans (run_setLen rfl), rfl, hdinLen, ?_, rfl, rfl, rfl⟩
  rw [dataOperand_eq_map]
  refine List.ext_getElem (by rwa [List.length_map, List.length_range]) fun j hj hj' => ?_
  have hbyte := hread j
  rw [if_pos hj'] at hbyte
  rw [List.getElem_map, List.getElem_range]
  exact hbyte.trans (by simp [hj'])

end Sys2Proof.Machine
end
